-- ==== Sys2Proof/Word.lean ====
section
/-! DEFINITION. Word.lean: the word types of KX4 (R6, R8) and the plain names of its units. -/

namespace Sys2Proof

/-- One byte (R6). -/
abbrev Byte := BitVec 8

/-- One 64-bit word of a register, a header, an entry or a message (R6, R431). -/
abbrev Word := BitVec 64

/-- Sparse data by number: pairs in strictly ascending key order, no pair equal to the default of its use. -/
abbrev SMap (α : Type) := List (Nat × α)

/-- A die half, each with its own fast clock (R9). -/
inductive Half where
  | west
  | east
  deriving DecidableEq, Repr

/-- A link unit: a port P0-P17 or a module U0-U5 (R1, R208). -/
inductive Link where
  | port (p : Fin 18)
  | module (u : Fin 6)
  deriving DecidableEq, Repr

/-- The four writable register words of one injector (R423, 15 Registers). -/
inductive InjReg where
  | ctrl
  | matchReg
  | param
  | seed
  deriving DecidableEq, Repr

/-- The exact value of an element of a floating-point or MX format (R51): NaN, an infinity, or ±m·2^e. -/
inductive FVal where
  | nan
  | inf (neg : Bool)
  | fin (neg : Bool) (m : Nat) (e : Int)
  deriving DecidableEq, Repr

/-- Fixed lane functions in place of the plan's function field: VOTE and the launch check (R107, R181), SEAL (R359), and the GATHER
merge, where op is never applied (R104). -/
inductive Lanes where
  | none
  | vote
  | seal
  | merge
  deriving DecidableEq, Repr

/-- What a combine applies to two present rows (R54, R55): function code, format code, keyed rounding, E4M3 overflow mode NAN, and fixed
lanes. -/
structure OpSpec where
  lanes : Lanes
  fn : Nat
  fmt : Nat
  keyed : Bool
  ovfNan : Bool
  deriving DecidableEq, Repr

end Sys2Proof
end

