-- ==== Sys2Proof/Syntax.lean ====
section
/-! DEFINITION. Syntax.lean: the commands of KX4, one constructor per row of spec/opcode_table.json, and their operand data. -/

namespace Sys2Proof

/-- An error word that a read of kiln memory meets (R203): the buffer, the 64-bit word in it, and whether SECDED cannot correct it. -/
structure EccHit where
  buffer : Fin 3072
  word : Fin 2048
  uncorrectable : Bool
  deriving DecidableEq, Repr

/-- What the SFDP read of stage 2 finds in the flash device (R305). -/
structure Sfdp where
  /-- the device shows the SFDP signature -/
  signature : Bool
  /-- the table declares 1-1-4 fast read -/
  quad : Bool
  /-- the quad-enable requirement is already met by the device's status as read -/
  quadEnableMet : Bool
  /-- the table declares 1-1-2 fast read -/
  dual : Bool
  /-- the device declares 1-1-1 fast read -/
  fast : Bool
  /-- the 4-byte Address Instruction Table is present -/
  addr4Table : Bool
  deriving DecidableEq, Repr

/-- An Ethernet frame as the MAC of an Ethernet-mode port hands it over (R234, R236). `body` is what lies between the hall header
and the FCS, pad included. -/
structure HallFrame where
  dstMac : BitVec 48
  etherType : BitVec 16
  tagged : Bool
  /-- IEEE 802.3 PAUSE or 802.1Qbb priority flow control -/
  pause : Bool
  fcsOk : Bool
  h0 : Word
  h1 : Word
  h2 : Word
  h3 : Word
  h4 : Word
  body : List Byte
  deriving DecidableEq, Repr

/-- What the checks after a FEC codeword pair say of one received flit (R226, R228). -/
structure RxCheck where
  /-- the flit's place in its group of five, R226 -/
  place : Fin 5
  /-- the first and the second codeword of the group's pair could not be corrected -/
  badFirst : Bool
  badSecond : Bool
  /-- codewords of the pair that the decoder corrected; on a module, the retries that its adapter reports (R417) -/
  corrected : Fin 3
  deriving DecidableEq, Repr

/-- The units and segments that fail the self-test of R329, and the banks with an uncorrectable word at initialisation. -/
structure SelfTest where
  failedUnits : BitVec 8
  badBanks : BitVec 8
  failedSegments : BitVec 16
  deriving DecidableEq, Repr

/-- A node of a group's tree (R37): `level` 0 is an L0 segment node (with `seg`), 1 an L0 die node, 2 to 5 the nodes at L1 to L4, as
the STAGE codes of R79; `coord` is its coordinate. -/
structure NodeId where
  stage : Fin 6
  coord : BitVec 16
  seg : Fin 16
  deriving DecidableEq, Repr

/-- The commands. A host register access carries the 64-bit word written (R431). `i : Nat` names an entry of the instance's
inbox: a cord or message that its links, rings or units have delivered and that waits to be processed. -/
inductive Instr where
  | kindleReq (v : Word)
  | anchorLock (v : Word)
  | trustAnchorWrite (k : Fin 6) (v : Word)
  | instanceIdWrite (v : Word)
  | disabledTilesWrite (k : Fin 9) (v : Word)
  | stepNumberWrite (v : Word)
  | jobSeedWrite (hi : Bool) (v : Word)
  | launchTickWrite (v : Word)
  | launchArm (v : Word)
  | tickSet (v : Word)
  | tickRead
  | stopReq (v : Word)
  | bankReq (v : Word)
  | wakeReq (v : Word)
  | emberReq (v : Word)
  | recoveryDone (v : Word)
  | spliceReq (v : Word)
  | failDieReq (v : Word)
  | spliceWrite (k : Fin 128) (v : Word)
  | memberWrite (x : BitVec 16) (v : Word)
  | groupEpochWrite (g : BitVec 8) (v : Word)
  | sealStatusW1c (v : Word)
  | faultPendingW1c (v : Word)
  | clearCounters (v : Word)
  | logReadSeqWrite (v : Word)
  | freezeArm (v : Word)
  | localArm (v : Word)
  | snapRelease (v : Word)
  | injEnableWrite (v : Word)
  | injArm (j : Fin 24) (v : Word)
  | injDisarm (j : Fin 24) (v : Word)
  | injectorRegWrite (j : Fin 24) (r : InjReg) (v : Word)
  | rewidenReq (p : Fin 18) (v : Word)
  | tallyT0Read (t : Fin 576) (prev : Bool) (e : Fin 64)
  | registerWrite (addr : BitVec 25) (v : Word)
  | unmappedAccess (addr : BitVec 25) (write : Bool)
  | coldAccess (addr : BitVec 25) (write : Bool)
  | testRegisterAccess (addr : BitVec 25) (write : Bool) (v : Word)
  | rstNLow
  | rstNHigh
  | testModeRise
  | testModeFall
  | pdGntRise (d : Fin 64)
  | pdGntFall (d : Fin 64)
  | powerFault (d : Fin 64)
  | pllLock (h : Half)
  | pllLockLost (h : Half)
  | throttleChange (h : Half) (code : BitVec 3)
  | seamReopen
  | lossOfLock (lane : Fin 144)
  | trainDone (p : Fin 18) (rate : BitVec 2) (lanes : BitVec 8)
  | serErrPulse (lane : Fin 144)
  | laneSerExceeded (lane : Fin 144)
  | adapterLinkDown (u : Fin 6)
  | peerSignalSeen (l : Link)
  | peerSignalLoss (l : Link)
  | pcsLinkUp (p : Fin 18)
  | counterAdd (t : Fin 576) (op : BitVec 2) (sel : BitVec 6) (amt : BitVec 16)
  | counterRead (t : Fin 576) (sel : BitVec 6)
  | heldCordRelease (t : Fin 576) (e : Fin 64)
  | cordReadStart (t : Fin 576)
  | readGrant (t : Fin 576)
  | readData (t : Fin 576) (data : BitVec 512)
  | stagingStall (t : Fin 576)
  | writeGrant (t : Fin 576)
  | cordLand (t : Fin 576)
  | landingStall (t : Fin 576)
  | stepOpen (h : Half)
  | admissionRetest
  | admitNotice (i : Nat)
  | armNotice (i : Nat)
  | cordArrive (i : Nat) (ecc : List EccHit)
  | combineDone (plan : BitVec 12) (n : NodeId) (cord : BitVec 16) (residueOk : Bool) (ecc : List EccHit)
  | finishCord (i : Nat)
  | descendingCord (i : Nat)
  | mirrorAck (i : Nat)
  | restore (i : Nat)
  | localCompletion
  | sealContribution (i : Nat)
  | earlyRequest (i : Nat)
  | sealBroadcastReceive (i : Nat)
  | launchCheck (i : Nat)
  | launchCheckResult (i : Nat)
  | openLead
  | planPreheat (plan : BitVec 12)
  | preheatHoldEnd (plan : BitVec 12)
  | demandWake (d : Fin 64)
  | cool (d : Fin 64)
  | grantLate (d : Fin 64) (cycles : Nat)
  | grantAbsent (d : Fin 64)
  | scrubRead (b : Fin 8) (ecc : List EccHit)
  | flitTransmit (l : Link)
  | flitReceive (l : Link) (chk : RxCheck) (flit : List Byte)
  | nakRepeat (p : Fin 18)
  | ackVisibility (p : Fin 18)
  | ackTimeout (p : Fin 18)
  | retrainTimeout (p : Fin 18)
  | trainingTimeout (l : Link)
  | peerWaitExpiry (l : Link)
  | linkId (i : Nat)
  | degradeReq (i : Nat)
  | degradeAck (i : Nat)
  | spareTake (i : Nat)
  | spareAck (i : Nat)
  | window (i : Nat)
  | drain (i : Nat)
  | ringInject (stop : Fin 49) (ring : Fin 8)
  | ringReservation (stop : Fin 49) (ring : Fin 8)
  | fragmentReceive (p : Fin 18) (f : HallFrame)
  | hallAck (p : Fin 18) (f : HallFrame)
  | hallAckTimer (p : Fin 18) (flow : Fin 64)
  | hallRetransmit (p : Fin 18) (flow : Fin 64) (seq : BitVec 32)
  | flowDown (p : Fin 18) (flow : Fin 64)
  | hallEstablishAck (p : Fin 18)
  | timeExchangeSend (l : Link) (flow : Fin 64) (txTime : Word)
  | timeExchange (i : Nat) (rxTime : Word)
  | timeLoss
  | holdoverExpiry
  | nvmDiscover (d : Sfdp)
  | imageReadDone (bytes : List Byte) (readUs : BitVec 32)
  | authenticate
  | checkAndLoad (badWord : Fin 10)
  | treeBuild
  | kilnInitSelfTest (r : SelfTest)
  | kindleStageTimeout
  | logFillDone
  | failedLinkSilence
  | dieFailed (i : Nat)
  | entryFailed (i : Nat)
  | hearthSuccession (i : Nat)
  | standinOffer (i : Nat)
  | standinAccept (i : Nat)
  | standinDecline (i : Nat)
  | offerTimeout
  | standinCommit (i : Nat)
  | reform (i : Nat)
  | hold (i : Nat)
  | holdAck (i : Nat)
  | holdRelease (i : Nat)
  | holdOpen (i : Nat)
  | holdClosed (i : Nat)
  | recoveryTimeout (die : BitVec 16)
  | skewWarning (plan : BitVec 12) (n : NodeId) (cord : BitVec 16)
  | smoulderWarning (plan : BitVec 12) (cord : BitVec 16) (itemClass : Fin 6)
  | smoulderBound (plan : BitVec 12) (cord : BitVec 16) (itemClass : Fin 6) (culprit : BitVec 16) (tile : BitVec 10)
      (inst : BitVec 24) (level : Fin 5)
  | stallReport (i : Nat)
  | stallCollectionEnd
  | firebreak (i : Nat)
  | logWrite
  | logForward (i : Nat)
  | freeze (i : Nat)
  | freezePrewake
  | freezeCapture
  | reorderRelease (j : Fin 24)
  | injectHoldEnd (j : Fin 24)
  | leafEntryParityError (t : Fin 576)
  | moduleTrainingDone (u : Fin 6) (version : Bool) (rateGts : BitVec 6)
  | imageHeaderRead (bytes : List Byte)
  | hopByHopForward (i : Nat)
  deriving DecidableEq, Repr

end Sys2Proof
end

