-- ==== Sys2Proof/Decode.lean ====
section
/-! DEFINITION. Decode.lean: the command that a word spells. The command table gives no row any bits: commands come in through the register
port, the links, the tiles and the pins, each with operands of its own, so no word spells a command. -/

namespace Sys2Proof

/-- The command that `nbits` bits `w` spell: none. -/
def decodeTableWord (_nbits _w : Nat) : Option Instr := none

end Sys2Proof
end

