-- ==== Sys2Proof/Config.lean ====
section
/-! DEFINITION. Config.lean: the values the spec leaves open, as constants without a body. Each is applied to a counter held in the
state (State.free), so that every use is a fresh value that nothing constrains. -/

namespace Sys2Proof.Config

/-- The sub-tick phase of a fast-clocked unit at the instant it takes a timestamp (R275): where in its tick an event falls is timing
that the model does not hold. -/
opaque freePhase : Nat → BitVec 4

/-- The part of the servo's new rate that follows the upstream rate "from the drift of successive accepted offsets" (R285), in parts
per 10^9: the rule gives no formula for it. -/
opaque freeDrift : Nat → Int

/-- What a read of kiln memory gives for a word that SECDED cannot correct (R203): the rule states no value. -/
opaque freeWord : Nat → BitVec 64

/-- The peer discards a NOP flit that fails its checks there (R228): what the line does to a flit is outside the block, and the rule does not
say how the sender learns that the credits in it are to be carried again. -/
opaque freeLost : Nat → Bool

/-- Fast cycles that a counter of cycles counts for one event of a busy or waiting unit (R417): the model holds no cycles. -/
opaque freeCycles : Nat → Nat

/-- The instruction that the chip's TAP has put into an IEEE 1500 wrapper while TEST_MODE is 1 (R457): the controller lies outside the block. -/
opaque freeWs : Nat → Fin 4

/-- What the cells of a wrapper that is not in WS_BYPASS hold and drive, by cell (R457): they are loaded from outside the block. -/
opaque freeCell : Nat → Nat → BitVec 64

/-- The test instrument that is selected through the IEEE 1687 network acts on this unit or lane while TEST_MODE is 1 (R458): the selection is
made outside the block. -/
opaque freeTest : Nat → Nat → Bool

/-- The 256-bit words of a lane for the frames of an Ethernet-mode port, by lane rate code, width code and lane (R234, R452): the PCS is the one
of IEEE 802.3, and the spec does not repeat it. -/
opaque pcsWords : Nat → Nat → List (List (BitVec 8)) → Nat → List (BitVec 256)

/-- The frames that the same PCS takes from the words of the lanes. -/
opaque pcsFrames : Nat → Nat → List (List (BitVec 256)) → List (List (BitVec 8))

end Sys2Proof.Config
end

