-- ==== Sys2Proof/Machine/State.lean ====
section
/-! DEFINITION. State.lean: everything the spec gives one KX4 instance, as plain data, and its value at reset.
Each field's comment gives its width, the rule of spec/ that names it and, in brackets, its reset value where that is not the
empty list, zero or false that `State.reset` shows. -/

namespace Sys2Proof.Machine

/-- Why a command stops with a fault. -/
inductive Fault where
  /-- Raised by the meanings that take bytes from a link or from the NVM when the operand is not as long as the unit it stands for
  (a flit of 256 bytes, an image header of 256 bytes): no such event exists at the boundary. Safe: nothing that the hardware does
  stops here. -/
  | malformedOperand
  deriving DecidableEq, Repr

/-- Why a command is refused. -/
inductive Refusal where
  /-- Raised by `exec` alone for a row that has no meaning yet. Safe. -/
  | notModelled (mnemonic : String)
  deriving DecidableEq, Repr

/-! ### Cords, messages and what waits to be processed -/

/-- A cord: its 64-byte header W0-W7 (R216) and its payload bytes (R52, R53). -/
structure Cord where
  w0 : Word
  w1 : Word
  w2 : Word
  w3 : Word
  w4 : Word
  w5 : Word
  w6 : Word
  w7 : Word
  payload : List Byte
  deriving DecidableEq, Repr

/-- A 64-byte control or management message (R223, R224). -/
structure Msg where
  m0 : Word
  m1 : Word
  m2 : Word
  m3 : Word
  m4 : Word
  m5 : Word
  m6 : Word
  m7 : Word
  deriving DecidableEq, Repr

/-- Where an inbox item comes from. -/
inductive Src where
  /-- a link, with the HALL_PEERS entry on an Ethernet port (0 elsewhere) -/
  | link (l : Link) (flow : Nat)
  /-- the leaf interface of a physical tile of this die -/
  | leaf (t : Nat)
  /-- the segment combiner of this die -/
  | seg (s : Nat)
  /-- a node of this instance, over a hop of the given level (1 to 4), or the plan engine (level 0) -/
  | self (level : Nat)
  deriving DecidableEq, Repr

/-- What has been delivered. `root` is a raw root cord on its way to the finishing stage. -/
inductive Body where
  | cord (c : Cord)
  | root (c : Cord)
  | ctrl (m : Msg)
  | mgmt (m : Msg)
  deriving DecidableEq, Repr

/-- An inbox item: origin, virtual channel 0-4 (R252) and content. -/
structure Arrival where
  src : Src
  vc : Nat
  body : Body
  /-- the cord buffer that it is in: since before the open, or since its hall unit came (R202, R240) -/
  buf : Option Nat := none
  /-- an uncorrectable word was found in that buffer before its step opened, R203 -/
  bad : Bool := false
  /-- its place in the order in which a link took in what it received, R182, R254 -/
  seq : Nat := 0
  /-- it crosses this die between two others of its package, R212 -/
  relay : Bool := false
  deriving DecidableEq, Repr

/-! ### The image, as kindling loads it (chapter 11) -/

/-- A group definition (R28, R312): members are (logical die index, TILE_COUNT). -/
structure GroupDef where
  num : Nat
  topLevel : Nat
  members : List (Nat × Nat)
  nonfiniteHalt : Bool
  exhaustHalt : Bool
  skewFactor : Nat
  boundMs : Nat
  tileSelect : BitVec 576
  standby : List Nat
  deriving DecidableEq, Repr

/-- A placement record (R313): level 1-4, node coordinate, instances in listed order. -/
structure PlaceRec where
  group : Nat
  level : Nat
  coord : Nat
  entries : List Nat
  deriving DecidableEq, Repr

/-- A HALL_PEERS entry (R315). -/
structure HallPeer where
  inst : Nat
  port : Nat
  mac : BitVec 48
  deriving DecidableEq, Repr

/-- A port configuration (R213, R315): mode 0 OFF, 1 KX4_P3, 2 KX4_P2, 3 ETH. -/
structure PortCfg where
  mode : Nat
  level : Nat
  rate : Nat
  width : Nat
  fallback : Bool
  spare : Bool
  timeEn : Bool
  tagEn : Bool
  spareFor : BitVec 16
  peerInst : Nat
  peerPort : Nat
  asymPs : Int
  etherType : BitVec 16
  vlan : Nat
  srcMac : BitVec 48
  pcp : BitVec 15
  peers : List HallPeer
  deriving DecidableEq, Repr

/-- A module configuration (R213, R315); `relays` are (RELAY_TO, RELAY_VIA). -/
structure ModCfg where
  enabled : Bool
  ucie2 : Bool
  timeEn : Bool
  minRate : Nat
  peerInst : Nat
  peerMod : Nat
  asymPs : Int
  relays : List (Nat × Nat)
  deriving DecidableEq, Repr

/-- The policies section with its defaults applied (R317). -/
structure Policies where
  spareCounts : List Nat
  arrivalReserve : Nat
  recoveryReserve : Nat
  ceWarn : Nat
  ceRetire : Nat
  exchLockedUs : Nat
  exchAcqUs : Nat
  delayWinL13Ps : Nat
  delayWinL4Ps : Nat
  timeLossLimit : Nat
  holdoverUs : Nat
  launchLeadMin : Nat
  laneSerLimit : Nat
  hallDeadUs : Nat
  moduleTrainUs : Nat
  peerWaitMs : Nat
  deriving DecidableEq, Repr

/-- An entry of the burn plan, words W0-W7 (R162, R163, R168, R170). -/
structure PlanEntry where
  w0 : Word
  w1 : Word
  w2 : Word
  w3 : Word
  w4 : Word
  w5 : Word
  w6 : Word
  w7 : Word
  deriving DecidableEq, Repr

/-- A leaf set (R171): 128 trigger entries (W0, W1), 16 staging ring words, 64 landing entries (W0, W1). -/
structure LeafSet where
  triggers : List (Word × Word)
  rings : List Word
  landings : List (Word × Word)
  deriving DecidableEq, Repr

/-- The accepted kindling image (R308 to R321). -/
structure Image where
  formatVersion : BitVec 16
  microcode : BitVec 16
  /-- the plan-engine store: the microcode section as it stands in the image, R310 -/
  store : List Byte
  imageBytes : BitVec 32
  sharedCrc : BitVec 32
  buildTag : BitVec 32
  hearthOnly : Bool
  pool : Bool
  groups : List GroupDef
  places : List PlaceRec
  sysMap : List (Nat × Nat)
  ports : List PortCfg
  modules : List ModCfg
  weights : List Nat
  portDepths : List (List Nat)
  moduleDepths : List (List Nat)
  policies : Policies
  cold : List (Nat × Nat)
  planHdr : List Byte
  planW : List Word
  entries : List PlanEntry
  tileMap : List Nat
  leafSets : List LeafSet
  descriptors : List (Word × Word)
  tables : List (List Nat)
  deriving DecidableEq, Repr

/-! ### Units fixed for the instance -/

/-- Integration parameters (R456). -/
structure Params where
  /-- R3 -/
  hearthOnly : Bool
  /-- 2-8 fast cycles, R126 -/
  rdLatency : Nat
  /-- PMA transmit latency per lane rate code, ps, R282 -/
  pmaTxLatPs : List Nat
  /-- PMA receive latency per lane rate code, ps -/
  pmaRxLatPs : List Nat
  /-- FDI transmit latency at 4, 8, 12, 16, 24, 32 GT/s, ps -/
  fdiTxLatPs : List Nat
  /-- FDI receive latency, ps -/
  fdiRxLatPs : List Nat
  deriving DecidableEq, Repr

/-- The core wrappers of IEEE 1500 (R457): WR_EMBER, WR_WEST, WR_EAST and WR_SEG0 to WR_SEG15. -/
inductive Wrapper where
  | ember
  | west
  | east
  | seg (i : Fin 16)
  deriving DecidableEq, Repr

/-- The instructions of a wrapper (R457): WS_BYPASS, WS_EXTEST, WS_INTEST, and the one that chains its region's internal scan. -/
inductive WsInstr where
  | bypass
  | extest
  | intest
  | scan
  deriving DecidableEq, Repr

/-- Boundary levels that KX4 holds or samples (R446, R449, R457 to R459). -/
structure Pins where
  /-- RST_N, 1 bit -/
  rstN : Bool
  /-- TEST_MODE, 1 bit -/
  testMode : Bool
  /-- 1 from the fall of TEST_MODE until an RST_N pulse (R459) -/
  needRstPulse : Bool
  /-- KX_THR_ACK_W, toggles (R355) -/
  thrAckW : Bool
  /-- KX_THR_ACK_E, toggles (R355) -/
  thrAckE : Bool
  /-- the wrappers with their instructions; one that is not listed holds WS_BYPASS, R457 -/
  wrappers : List (Wrapper × WsInstr)
  /-- the choice of test instruments made from outside while TEST_MODE is 1, R458 -/
  testNo : Nat
  deriving DecidableEq, Repr

/-- The register port (R430 to R434). -/
structure RegPort where
  /-- IGNORED_WRITES, 16 bits, R434 -/
  ignored : BitVec 16
  /-- COLD_ACCESSES, 16 bits, R339 -/
  cold : BitVec 16
  /-- DECODE_ERRORS, 16 bits, R429 -/
  decodeErr : BitVec 16
  /-- KX_REG_PORT_LAST.KIND, 2 bits -/
  lastKind : BitVec 2
  /-- KX_REG_PORT_LAST.OFFSET, 25 bits -/
  lastOffset : BitVec 25
  /-- RP_RDATA of the last access, 64 bits, R430 -/
  rdata : Word
  /-- RP_ERR of the last access, R429 -/
  err : Bool
  /-- RP_ACK: an access has been answered in this ember cycle, R430 -/
  ack : Bool
  deriving DecidableEq, Repr

/-! ### Ash log, freeze and injectors (chapter 15) -/

/-- An event on its way to the log (R411, R413); `e2` is the step context or the wide argument. -/
structure LogEvent where
  time : Word
  event : BitVec 16
  sev : BitVec 3
  fwd : Bool
  unit : BitVec 8
  origin : BitVec 24
  e2 : Word
  argA : BitVec 32
  argB : BitVec 32
  /-- STEP and ATTEMPT at the event, which a wide event's E2 does not hold, R413 -/
  ctx : Word
  deriving DecidableEq, Repr

/-- A log entry, words E0-E3 (R411). -/
structure LogEntry where
  e0 : Word
  e1 : Word
  e2 : Word
  e3 : Word
  deriving DecidableEq, Repr

/-- The ash log in D62 (R410 to R416). -/
structure AshLog where
  /-- 32,768 entries of 32 bytes by slot, R410; an unlisted slot is all zeros -/
  entries : SMap LogEntry
  /-- WRITE_SEQ, 48 bits, R413 -/
  writeSeq : BitVec 48
  /-- READ_SEQ, 48 bits, R415 -/
  readSeq : BitVec 48
  /-- KX_LOG_CTRL.MODE, 1 STOP, R415 -/
  stopMode : Bool
  /-- FWD_MIN_SEV, 3 bits, R416 [0b111] -/
  fwdMinSev : BitVec 3
  /-- FWD_TARGET, 24 bits, R416 [0xFF_FFFF] -/
  fwdTarget : BitVec 24
  /-- LOG_THRESHOLD, 16 bits, R415 [0x6000] -/
  threshold : BitVec 16
  /-- DROPPED, 16 bits, R413 -/
  dropped : BitVec 16
  /-- OVERRUN, 16 bits, R415 -/
  overrun : BitVec 16
  /-- FWD_DROPPED, 16 bits, R416 -/
  fwdDropped : BitVec 16
  /-- FWD_SENT, 16 bits, R416 -/
  fwdSent : BitVec 16
  /-- the 64-entry event queue, R413 -/
  queue : List LogEvent
  /-- events discarded since the last LOST entry, R413 -/
  lostCount : Nat
  /-- the first of them, R413 -/
  lostFirst : Option LogEvent
  /-- the zero fill of R410 is running [true: D62 is first powered] -/
  filling : Bool
  /-- a power fault in D62 stopped logging and freezes, R410, R379 -/
  disabled : Bool
  deriving DecidableEq, Repr

/-- A freeze that is armed (R418): tick, FREEZE_ID, SOURCE of KX_SNAP_STATUS (0-3). -/
structure ArmedFreeze where
  tick : Word
  id : BitVec 16
  source : BitVec 2
  deriving DecidableEq, Repr

/-- Freeze and snapshot state (R418 to R422). -/
structure Freeze where
  /-- KX_FREEZE_TICK, 64 bits -/
  tickReg : Word
  /-- TRIG_EN, R419 -/
  trigEn : Bool
  /-- TRIG_SYSTEM, R419 -/
  trigSystem : Bool
  /-- COUNTER_BASE, 3 bits, R421 -/
  counterBase : BitVec 3
  /-- TRIG_EVENT, 16 bits, R419 -/
  trigEvent : BitVec 16
  /-- REFUSE_REASON, 4 bits, R418 -/
  refuse : BitVec 4
  /-- the pending system freeze, R418 -/
  pendingSys : Option ArmedFreeze
  /-- the pending local freeze, R418 -/
  pendingLocal : Option ArmedFreeze
  /-- the last FREEZE_ID given by this master since kindling, R418 -/
  lastId : BitVec 16
  /-- HELD, R421 -/
  held : Bool
  /-- LATE, R420 -/
  late : Bool
  /-- SOURCE of the held capture, 2 bits -/
  source : BitVec 2
  /-- FREEZE_ID of the held capture, 16 bits -/
  freezeId : BitVec 16
  /-- LATE_TICKS, 32 bits -/
  lateTicks : BitVec 32
  /-- CAPTURE_TIME, 64 bits, R276 -/
  captureTime : Word
  /-- the snapshot records and the capture mirror by register offset (R421, R436, R438); unlisted words are 0 -/
  captured : SMap Word
  deriving DecidableEq, Repr

/-- A cord that a REORDER injection holds back (R425): its channel and hall flow, how many later cords of its channel (units of its flow)
must go first, and the SEQ of its unit on an Ethernet port. -/
structure Wait where
  vc : Nat
  flow : Nat
  left : Nat
  seq : BitVec 32
  cord : Cord
  /-- on an Ethernet port, the frames of the unit that wait, R425 -/
  frames : List Nat := []
  deriving DecidableEq, Repr

/-- A link fault injector (R423 to R425). -/
structure Injector where
  /-- KX_INJ_CTRL without its WO bits -/
  ctrl : Word
  /-- KX_INJ_MATCH -/
  matchReg : Word
  /-- KX_INJ_PARAM [REORDER_DEPTH 1] -/
  param : Word
  /-- KX_INJ_SEED -/
  seed : Word
  /-- ARMED -/
  armed : Bool
  /-- MATCHED, 32 bits -/
  matched : BitVec 32
  /-- INJECTED, 16 bits -/
  injected : BitVec 16
  /-- a HOLD is in force on the channels of VC_MASK, R425 -/
  holding : Bool
  /-- a REORDER wait, R425 -/
  reorder : Option Wait
  deriving DecidableEq, Repr

/-- The injectors (R423). -/
structure Inject where
  /-- ENABLE of KX_INJ_GLOBAL, R423 -/
  enable : Bool
  /-- injectors 0-23 -/
  units : SMap Injector
  deriving DecidableEq, Repr

/-! ### Kindling (chapter 11) -/

/-- Kindling states (R303). -/
inductive KState where
  | cold
  | kindling
  | kindled
  | locked
  | ready
  deriving DecidableEq, Repr

/-- Kindling and image registers and the state kindling keeps (R299 to R335). -/
structure Kindle where
  /-- STATE of KX_KINDLE_STATUS, 4 bits, R303 -/
  state : KState
  /-- the stage 1-10 of R304 in progress, 0 outside -/
  stage : Nat
  /-- FAIL_CODE, 8 bits, R335 -/
  failCode : BitVec 8
  /-- FAIL_SECTION, 4 bits, R462 -/
  failSection : BitVec 4
  /-- FAIL_INDEX, 16 bits, R462 -/
  failIndex : BitVec 16
  /-- KINDLE_COUNT, 8 bits -/
  count : BitVec 8
  /-- 1 once KINDLE_REQ has been accepted since RST_N, R300 -/
  requested : Bool
  /-- ANCHOR_LOCKED, R301 -/
  anchorLocked : Bool
  /-- KX_INSTANCE_ID, 24 bits, R32 [0xFF_FFFF] -/
  instanceId : BitVec 24
  /-- KX_IMAGE_BASE, 32 bits -/
  imageBase : BitVec 32
  /-- KX_NVM_CTRL [63:60], 4 bits -/
  nvmCtrl : BitVec 4
  /-- KX_NVM_INFO, 64 bits -/
  nvmInfo : Word
  /-- the device offers the 4-byte Address Instruction Table, R305 -/
  addr4Ok : Bool
  /-- KX_TRUST_ANCHOR[0-5], R301 -/
  anchor : SMap Word
  /-- KX_DISABLED_TILES[0-8], R302 -/
  disabled : SMap Word
  /-- the disabled-tile list taken when KINDLE_REQ was accepted, 576 bits, R302 -/
  disabledTaken : BitVec 576
  /-- the SFDP read of stage 2 has ended and a mode is chosen, R305 -/
  discovered : Bool
  /-- the 256-byte header of the first read, R306 -/
  header : List Byte
  /-- the image bytes held in kiln memory while kindling reads them, R306 -/
  imageBytes : List Byte
  /-- 1 once the one re-read of R323 has been used -/
  reread : Bool
  /-- tiles kindled as spares, 576 bits, R24 -/
  spares : BitVec 576
  /-- the logical tiles: physical tile numbers in ascending order, R26 -/
  logical : List Nat
  /-- launch-to-seal durations of the last attempts that reached a broadcast, oldest first, at most 16, R330, R404 -/
  durations : List Nat
  /-- the largest skew per level of those attempts: lists for L0 to L4, R402 -/
  skews : SMap (List Nat)
  /-- links in the set PEER_WAIT still runs for: peer signal seen, by link number, R325 -/
  peerSeen : List Nat
  /-- a KINDLE_REQ waits for the banked block to wake, R332 -/
  afterWake : Bool
  /-- the current links trained before a bank or re-kindle and keep equalisation, R334, R353 -/
  keepEq : List Nat
  /-- the image that kindling accepted before the current one, for R334 -/
  oldPorts : List PortCfg
  deriving DecidableEq, Repr

/-! ### Time and launch (chapter 10) -/

/-- Time states (R288). -/
inductive TState where
  | free
  | acquiring
  | locked
  | holdover
  | master
  deriving DecidableEq, Repr

/-- A timestamp that an end took: the message's SEQ, the time, and why it may not be used: 0 it may, 1 a throttle change, 2 the phase was
invalid (R284), 3 the message has not left yet (R282). -/
structure Stamp where
  seq : BitVec 32
  time : Word
  bad : Nat
  deriving DecidableEq, Repr

/-- The exchange state of a time-enabled link or hall flow (R281 to R284). -/
structure Exch where
  link : Link
  flow : Nat
  /-- SEQ of the last message sent, 32 bits -/
  seq : BitVec 32
  /-- SEQ of the last message received intact, 32 bits -/
  echoSeq : BitVec 32
  /-- when its last messages were sent, newest first, at most 4 -/
  sent : List Stamp
  /-- when the peer's last messages were received, newest first, at most 2 -/
  rcvd : List Stamp
  /-- M4, M5, M6 of the last message sent: a change of one of them sends the next at once, R281 -/
  said : Word × Word × Word
  /-- M4, M5, M6 of the peer's last message -/
  peerM4 : Word
  peerM5 : Word
  peerM6 : Word
  /-- instance identifier of the peer as its message names it -/
  peer : BitVec 24
  /-- least-delay window: delays of the last 64 computed samples, ps, newest first, R284 -/
  delays : List Int
  deriving DecidableEq, Repr

/-- Time registers and servo (R274 to R298). -/
structure Time where
  /-- the global tick, 64 bits, R274 -/
  tick : Word
  /-- the tick fraction, 32 bits, R274 -/
  frac : BitVec 32
  /-- the rate word less nominal, parts per 10^9, signed, within ±200,000, R274, R285 -/
  ratePpb : Int
  /-- time state, R288 -/
  state : TState
  /-- SYS_LOCKED, R290 -/
  sysLocked : Bool
  /-- SUBTREE_LOCKED last reported, R289 -/
  subtreeLocked : Bool
  /-- HOPS, 4 bits, R279 [15] -/
  hops : Nat
  /-- upstream link and hall flow, R279 -/
  upstream : Option (Link × Nat)
  /-- LOCK_GEN, 16 bits, R290 -/
  lockGen : BitVec 16
  /-- MASTER_INSTANCE, 24 bits, R278 [0xFF_FFFF] -/
  master : BitVec 24
  /-- SYS_CONFIRM held by the master or passed on, R290 -/
  sysConfirm : Bool
  /-- 1 once SYS_CONFIRM was set since kindling, R298 -/
  confirmedOnce : Bool
  /-- OFFSET_PS of the last accepted sample, signed, R283 -/
  offsetPs : Int
  /-- DELAY_PS of that sample -/
  delayPs : Int
  /-- SAMPLES_ACCEPTED, 32 bits -/
  samples : BitVec 32
  /-- consecutive accepted samples with offset at most 1 ns in magnitude, R288 -/
  goodRun : Nat
  /-- tick at which HOLDOVER was entered, R288 -/
  holdoverSince : Word
  /-- 1 until the first accepted sample of an acquisition, R277 -/
  firstSample : Bool
  /-- per-link exchanges -/
  exch : List Exch
  /-- FRACTION latched at the last read of KX_TICK, 32 bits -/
  latchFrac : BitVec 32
  /-- SUB_TICK latched, 4 bits -/
  latchSub : BitVec 4
  /-- SUB_VALID latched -/
  latchValid : Bool
  /-- KX_LAUNCH_TICK, 64 bits, R292 -/
  launchTick : Word
  /-- LAUNCH_GEN, 16 bits, R292 -/
  launchGen : BitVec 16
  /-- REFUSE_REASON of KX_LAUNCH_CTRL, 4 bits -/
  refuse : BitVec 4
  /-- the launch tick that M5 passes downstream, as last received, R293 -/
  launchPass : Word
  /-- a launch is pending (accepted or taken, not yet opened), R292 -/
  launchPending : Bool
  /-- LAST_DURATION, 32 bits, R295 -/
  lastDuration : BitVec 32
  /-- EXCEPTIONS of the last completed attempt, 16 bits, R296 -/
  exceptions : BitVec 16
  /-- exceptions counted in the attempt in progress -/
  exceptionsNow : Nat
  deriving DecidableEq, Repr

/-! ### Power (chapter 12) -/

/-- Domain states (R337). -/
inductive DState where
  | off
  | banked
  | warm
  | waking
  deriving DecidableEq, Repr

/-- One power domain and its hand-off signals (R337, R341). -/
structure Dom where
  st : DState
  /-- KX_PD_REQ -/
  req : Bool
  /-- KX_PD_RET -/
  ret : Bool
  /-- PD_GNT as synchronised -/
  gnt : Bool
  /-- the domain is wanted again once its grant has fallen, R357 -/
  wanted : Bool
  /-- GRANT_LATE counted for the present request, R342 -/
  lateCounted : Bool
  /-- it is to leave once its grant has come, to OFF (true) or BANKED: KX_PD_REQ never falls before the grant, R341 -/
  leave : Option Bool
  deriving DecidableEq, Repr

/-- Power registers and sequencer (R337 to R357). -/
structure Power where
  /-- D0-D63 -/
  doms : SMap Dom
  /-- PLL_W_LOCK -/
  pllW : Bool
  /-- PLL_E_LOCK -/
  pllE : Bool
  /-- BANK_PENDING, R351 -/
  bankPending : Bool
  /-- the block is banked by request, R351 -/
  banked : Bool
  /-- GAP_BANKED, R351 -/
  gapBanked : Bool
  /-- EAST_WANTED and KX_EAST_WANTED, R356 -/
  eastWanted : Bool
  /-- EAST_CLOSED, R271 -/
  eastClosed : Bool
  /-- east clock stopped by code 0b100, R356 -/
  eastStopped : Bool
  /-- COOL_IDLE, 16 bits [0x07D0], R348 -/
  coolIdle : BitVec 16
  /-- OPEN_LEAD, 16 bits [0x0C80], R346 -/
  openLead : BitVec 16
  /-- west throttle step in force, 2 bits, R355 -/
  stepW : BitVec 2
  /-- east throttle step in force, 2 bits -/
  stepE : BitVec 2
  /-- codes recorded while a PLL is stopped, R356 -/
  codeW : Option (BitVec 3)
  codeE : Option (BitVec 3)
  /-- COLD_PATH_WAITS, 16 bits, R347 -/
  coldPathWaits : BitVec 16
  /-- DEMAND_WAKES, 16 bits -/
  demandWakes : BitVec 16
  /-- THROTTLE_CHANGES, 16 bits -/
  throttleChanges : BitVec 16
  /-- GRANT_LATE, 16 bits, R342 -/
  grantLate : BitVec 16
  /-- PREHEAT HOLDs in force: plan index, domain mask and the tick at which it was raised, R168, R348 -/
  holds : List (Nat × BitVec 64 × Nat)
  /-- pre-heats raised in the step: plan index and domain mask, R169, R348 -/
  preheats : List (Nat × BitVec 64)
  /-- pre-heat requests waiting for their tick: plan index and tick, R169 -/
  preheatDue : List (Nat × Int)
  /-- the open-lead request of the coming launch has been raised, R346 -/
  leadRaised : Bool
  /-- a wake of the whole block is in progress, R353 -/
  waking : Bool
  /-- cold-path waits in progress: domain -> tick of the demand plus 1, R347 -/
  coldSince : SMap Nat
  /-- throttle changes of a half in the last 10 ms, 0 west, 1 east: the tick, and the ticks of 64 fast cycles before it and after it, R284 -/
  throttled : SMap (List (Nat × Nat × Nat))
  /-- when each domain was last asked for, with the ticks of timer pauses up to then, R403 -/
  reqSince : SMap (Nat × Nat)
  /-- an east stop waits for the rings to hold no east-bound beat, R356, R273 -/
  eastStopWaits : Bool
  /-- a bank of the block waits for the rings to empty, R351 -/
  bankDrains : Bool
  deriving DecidableEq, Repr

/-! ### Step, seal and faults (chapters 06, 13, 14) -/

/-- Step states (R176). -/
inductive SState where
  | idle
  | armed
  | opened
  | done
  | halted
  deriving DecidableEq, Repr

/-- The row of a seal-group node: 32 INT32 lanes (R359, R181). -/
abbrev Row := List (BitVec 32)

/-- Rows collected at one node of the seal group for one SEAL cord index (0 contribution, 2 launch check), by child position. -/
structure SealCol where
  node : NodeId
  idx : Nat
  rows : List (Nat × Row)
  /-- buffers of the control reserve that hold the rows, R358 -/
  bufs : List Nat
  sent : Bool
  deriving DecidableEq, Repr

/-- Step engine and seal registers (R174 to R183, R358 to R377). -/
structure Step where
  /-- STATE of KX_STEP_STATUS, R176 -/
  state : SState
  /-- STOP_PENDING, R180, R374 -/
  stopPending : Bool
  /-- SHORT of the current step, R199 -/
  short : Bool
  /-- ATTEMPT, 16 bits, R175 -/
  attempt : BitVec 16
  /-- KX_STEP_NUMBER.STEP, 48 bits, R174 -/
  number : BitVec 48
  /-- KX_JOB_SEED_LO, R174 -/
  seedLo : Word
  /-- KX_JOB_SEED_HI, R174 -/
  seedHi : Word
  /-- launch tick of this attempt, R179 -/
  launch : Word
  /-- ticks of timer pauses before the attempt, R385 -/
  pausedBase : Nat
  /-- the west half has opened the step, R177 -/
  openW : Bool
  /-- the east half has opened the step -/
  openE : Bool
  /-- the first launch after kindling or out of IDLE, R199 -/
  firstOut : Bool
  /-- no launch has happened since kindling, R390 -/
  neverLaunched : Bool
  /-- SHORT bit of the last broadcast, R199 -/
  bcastShort : Bool
  /-- UNCLEAN reasons raised in this attempt, 32 bits, R364 -/
  unclean : BitVec 32
  /-- reasons found in ARMED that the coming attempt raises at open, R389 -/
  uncleanNext : BitVec 32
  /-- EXHAUST_HALT raised here, R397 -/
  exhaustHalt : Bool
  /-- OR of the flags of every cord finished or landed in the attempt, R360 -/
  flags : BitVec 16
  /-- NF_SKIP and NF_HALT raised, R371 -/
  nfSkip : Bool
  nfHalt : Bool
  /-- plan indices in which this instance originated a non-finite value, R372 -/
  nfPlans : List Nat
  /-- digest table of the current attempt: plan -> (DIGEST, COUNT), R363 -/
  digestCur : SMap (BitVec 32 × BitVec 32)
  /-- digest table of the previous attempt -/
  digestPrev : SMap (BitVec 32 × BitVec 32)
  /-- plan index -> OR of the flags of its cords in this attempt, R371 -/
  planFlags : SMap (BitVec 16)
  /-- the seal contribution of this attempt has been sent, R178 -/
  contributed : Bool
  /-- an early request of this attempt has been sent, R365 -/
  earlySent : Bool
  /-- MIRROR cords sent and not yet acknowledged: (plan, cord, source tile), R111 -/
  mirrorOut : List (Nat × Nat × Nat)
  /-- seal-group node rows being collected, R359, R181 -/
  cols : List SealCol
  /-- the row of the first decision of the root in this attempt, and whether it came by an early request, R365 -/
  decided : Option (Row × Bool)
  /-- SHORT as this instance reported it in its contribution of the attempt, R199, R365 -/
  shortSent : Bool
  /-- the root has issued this attempt's broadcast, R365 -/
  broadcast : Bool
  /-- the launch check row has been fed for the pending launch, R181 -/
  checkFed : Bool
  /-- cords of the abandoned attempt are discarded on these (link, vc) until their drain marker, R182 -/
  draining : List (Nat × Nat)
  /-- (link, vc) whose drain marker came while this instance still runs the abandoned attempt, R182 -/
  drained : List (Nat × Nat)
  /-- LAST_OUTCOME, 4 bits -/
  lastOutcome : BitVec 4
  /-- REPLAY_RUN, 8 bits -/
  replayRun : BitVec 8
  /-- LAST_FLAGS, 16 bits -/
  lastFlags : BitVec 16
  /-- HALT_SEEN, REPLAY_SEEN, SKIP_SEEN, 3 bits -/
  seen : BitVec 3
  /-- KX_SEAL_RESULT.UNCLEAN, 32 bits -/
  lastUnclean : BitVec 32
  /-- KX_SEAL_RESULT.FIRST_NF, 32 bits [0xFFFF_FFFF] -/
  lastFirstNf : BitVec 32
  /-- KX_SEAL_DIGEST, 64 bits -/
  lastDigest : Word
  /-- KX_SEAL_COUNTS: SEALED, SKIPPED, REPLAYED, EARLY_SENT, 16 bits each -/
  nSealed : BitVec 16
  nSkipped : BitVec 16
  nReplayed : BitVec 16
  nEarly : BitVec 16
  deriving DecidableEq, Repr

/-- Recovery hold kinds (R383). -/
inductive HoldKind where
  | splice
  | standin
  | own
  | reform
  deriving DecidableEq, Repr

/-- A hold open at the coordinator (R383 to R386). -/
structure HoldRec where
  die : Nat
  /-- the instance that opened it, by which its release is known: a die without an index has LOGICAL_DIE 0; 0xFFFFFF for the coordinator's own -/
  inst : Nat
  kind : HoldKind
  /-- the coordinator's tick at which it opened, R386 -/
  since : Nat
  deriving DecidableEq, Repr

/-- A stand-in procedure at the coordinator (R391 to R393): index, failed instance, next pool entry, candidate offered. -/
structure Offer where
  die : Nat
  old : BitVec 24
  next : Nat
  cand : Option (BitVec 24)
  mapCrc : BitVec 32
  /-- tick of the offer to that candidate, R393 -/
  since : Nat
  deriving DecidableEq, Repr

/-- Stand-in roles (KX_FAULT_STATUS). -/
inductive Role where
  | none
  | pool
  | restoring
  | holds
  deriving DecidableEq, Repr

/-- Fault registers, sparing, coordinator (chapter 14). -/
structure Faults where
  /-- DIE_FAILED, R379 -/
  dieFailed : Bool
  /-- FAIL_CAUSE, 5 bits -/
  cause : BitVec 5
  /-- DIE_FAILED and signalling go on until the links are silenced, R379 -/
  silenced : Bool
  /-- HOLD_OPEN: kind of the hold this instance opened, R383 -/
  hold : Option HoldKind
  /-- HOLD_ACK awaited before the early request, R383 -/
  awaitAck : Bool
  /-- RECOVERY_DONE has been written for the open hold, R383 -/
  hostDone : Bool
  /-- TIMERS_PAUSED, R385 -/
  paused : Bool
  /-- the tick at which the present pause began, R385 -/
  pausedSince : Word
  /-- ticks of earlier pauses, R385 -/
  pausedTicks : Nat
  /-- smoulder items that have warned in the attempt: plan index, cord index, class and item, R404 -/
  warned : List (Nat × Nat × Nat × Nat)
  /-- the last progress events of the attempt: what was waited for, by `progKey` -> tick, and the pauses up to it, R403 -/
  progress : SMap (Nat × Nat)
  /-- STANDIN_ROLE, 2 bits -/
  role : Role
  /-- STANDIN_INDEX, 16 bits -/
  standinIndex : BitVec 16
  /-- KX_FAULT_PENDING [7:0], 8 bits -/
  pending : BitVec 8
  /-- SPLICE_TILE, 10 bits -/
  spliceTile : BitVec 10
  /-- RECOVERY_LIMIT_S, 16 bits [0x003C] -/
  recoveryLimit : BitVec 16
  /-- KX_STANDIN_POOL[0-63]; an unlisted entry has INSTANCE 0xFF_FFFF and no other bit -/
  pool : SMap Word
  /-- KX_SPLICE[0-127], R390 -/
  splices : SMap Word
  /-- logical tile index -> physical tile now holding it, where a splice moved it, R387 -/
  moved : SMap Nat
  /-- retired tiles, 576 bits, R387 -/
  retired : BitVec 576
  /-- the logical die index this instance holds, R314, R394 -/
  myDie : Option Nat
  /-- CHANGE_SEQ of the last change applied, R381 -/
  changeSeq : BitVec 32
  /-- the highest CHANGE_SEQ seen or numbered here, R381 -/
  lastSeq : BitVec 32
  /-- instances that a DIE_FAILED or an applied change has named as failed, R45 -/
  gone : List Nat
  /-- flooded changes held back for a missing lower one, R381 -/
  heldBack : List Msg
  /-- RESUME_MISMATCH of epochs: feed no launch check until restored, R382 -/
  epochBad : Bool
  /-- this instance has opened a hold since the last HOLD_CLOSED, R383, log 44 -/
  held : Bool
  /-- indices re-formed since the last HOLD_CLOSED, R399 -/
  reforming : List Nat
  /-- LOGICAL_DIE of the HOLD_OPEN by which the timers paused, R385 -/
  pausedBy : Nat
  /-- holds open at this coordinator, R383 -/
  holds : List HoldRec
  /-- stand-in procedures in progress at this coordinator, R391 -/
  offers : List Offer
  /-- stall reports collected in the window, R405 -/
  reports : List Msg
  /-- tick at which the window opened; none while closed, R405 -/
  collecting : Option Word
  /-- RESTORE cords still expected by this stand-in: (plan, cord, logical tile), R396 -/
  restoreDue : List (Nat × Nat × Nat)
  /-- STANDIN_COMMIT values this stand-in must match: STEP and the check words M5, M6, R396 -/
  commit : Option (BitVec 48 × Word × Word)
  /-- dies whose index is being stood in and whose twin RESTORE is not complete, R397 -/
  restoring : List Nat
  deriving DecidableEq, Repr

/-! ### Kiln, nodes and admission (chapters 02, 03, 07) -/

/-- One operand or held cord of a node: child position, cord buffer, cord. -/
structure Operand where
  child : Nat
  buf : Nat
  cord : Cord
  deriving DecidableEq, Repr

/-- An open cord index at a node (R191). -/
structure OpenCord where
  idx : Nat
  ops : List Operand
  /-- residue attempts made so far, R85 -/
  attempts : Nat
  /-- RESIDUE to be raised on the output, R86 -/
  residue : Bool
  /-- LATE to be raised on the output, R402 -/
  late : Bool
  /-- tick of the first and the last arrival, R402 -/
  firstTick : Word
  lastTick : Word
  /-- ticks of timer pauses before it opened, R385 -/
  pausedBase : Nat
  /-- the result has been forwarded upward and acknowledged, R209 (or finished at the root) -/
  forwarded : Bool
  /-- the result has left over a link that has not acknowledged it yet, R209 -/
  sent : Bool
  /-- the result that passed its checks and waits for the parent's window, R193 -/
  partialOut : Option Cord
  deriving DecidableEq, Repr

/-- A node instance of the step (R177, R191). -/
structure NodeInst where
  plan : Nat
  node : NodeId
  /-- children that carry cords of the entry, R192 -/
  n : Nat
  /-- effective window W, R191 -/
  win : Nat
  /-- claim in buffers, R192 -/
  claim : Nat
  /-- C, the entry's cord count -/
  cords : Nat
  /-- the claim is admitted, R195 -/
  admitted : Bool
  /-- indices below this have closed, R193 -/
  lowest : Nat
  opens : List OpenCord
  /-- closed indices, R191 -/
  closed : List Nat
  /-- indices whose descending cord has been copied onward, R94, R178 -/
  copied : List Nat
  /-- copies of finished cords sent down and not yet accepted: (cord index, child coordinate), R191, R209 -/
  copyWait : List (Nat × Nat)
  /-- result buffers held: (cord index, cord buffer), R192 -/
  results : List (Nat × Nat)
  /-- buffers of the claim that come from the recovery reserve, R202 -/
  fromRecovery : Nat
  /-- admission notices held: (child position, instance), R200 -/
  notices : List (Nat × Nat)
  noticeSent : Bool
  armSent : Bool
  /-- one skew warning per node instance per attempt, R402 -/
  skewWarned : Bool
  /-- the largest skew of the attempt, ticks, R402 -/
  maxSkew : Nat
  /-- partials forwarded in the step, by cord index: kept for re-sends under R44 -/
  partials : List (Nat × Cord)
  /-- lowest open index that each placement of the parent last advertised by WINDOW, plus 1; 0 before, R193 -/
  parentLowest : SMap Nat
  /-- children whose offer beyond the window was logged, R194 -/
  leadLogged : Bool
  /-- indices that a change of placements has moved here in mid-step: each is open only from the first cord re-sent for it, R44, R45 -/
  taken : List Nat := []
  /-- how the lowest open index moved in the attempt, oldest first: its value, the tick, and the pauses up to it, R403 -/
  lows : List (Nat × Nat × Nat) := []
  deriving DecidableEq, Repr

/-- A PASS hold claim at a PASS target die (R192). -/
structure PassHold where
  plan : Nat
  claim : Nat
  admitted : Bool
  closed : Bool
  deriving DecidableEq, Repr

/-- What a cord buffer is in use for (R187, R190). -/
inductive BufUse where
  | node (plan : Nat)
  | arrival
  | hall
  | control
  | permit (plan : Nat)
  deriving DecidableEq, Repr

/-- A cord held in the arrival reserve until this instance opens (R183, R190). -/
structure Early where
  buf : Nat
  item : Arrival
  /-- an uncorrectable word was found in its buffer, R203 -/
  bad : Bool
  deriving DecidableEq, Repr

/-- Kiln units, banks, buffers, allocator (R187 to R206). -/
structure Kiln where
  /-- UNIT_WORKING, 8 bits [0xFF], R86 -/
  unitWorking : BitVec 8
  /-- UNIT_WARN, 8 bits, R401 -/
  unitWarn : BitVec 8
  /-- UNIT_PREDICTED, 8 bits, R401 -/
  unitPredicted : BitVec 8
  /-- units due to retire at the next step boundary by prediction, R401 -/
  unitDue : BitVec 8
  /-- ticks of passing residue retries per unit, R401 -/
  retryTicks : SMap (List Nat)
  /-- BANK_WORKING, 8 bits [0xFF], R205 -/
  bankWorking : BitVec 8
  /-- BANK_WARN, 8 bits, R205 -/
  bankWarn : BitVec 8
  /-- banks due at the coming boundary and at the one after it: bank -> reason 1-3, R205 -/
  bankDue : SMap Nat
  bankDueNext : SMap Nat
  /-- cord buffers retired individually, R205 -/
  bufRetired : List Nat
  /-- corrections per word since kindling: 2048 * buffer + word -> count, R205 -/
  wordCe : SMap Nat
  /-- ticks of corrected words per bank, R205 -/
  bankCe : SMap (List Nat)
  /-- uncorrectable words per bank in this attempt, R205 -/
  bankUe : SMap Nat
  /-- scrub position per bank: 256-byte slice 0-24,575, R204 -/
  scrubPos : SMap Nat
  /-- cord buffers in use, R187 -/
  used : SMap BufUse
  /-- node instances of the step, R177 -/
  nodes : List NodeInst
  /-- PASS holds of the step, R192 -/
  passHolds : List PassHold
  /-- plan indices waiting for admission, in order, with the tick they began to wait, R195 -/
  waiting : List (Nat × Word)
  /-- plan indices admitted -/
  admitted : List Nat
  /-- plan indices whose arm notice the leaves of this die have had in the step, R200 -/
  armed : List Nat
  /-- buffers of the recovery reserve in use by node instances opened in the step, R202 -/
  recoveryUsed : Nat
  /-- cords held in the arrival reserve, R183 -/
  early : List Early
  /-- the working placement lists, R43, R44 -/
  places : List PlaceRec
  /-- the current member lists and arguments after RE-FORM: the groups in force, R399 -/
  groups : List GroupDef
  /-- removed members per group, (group, member index at removal), in order, R398 -/
  removed : List (Nat × Nat)
  /-- root instance per group in force, R42, R45 -/
  roots : SMap Nat
  /-- standby entries used up per group, R45 -/
  standbyUsed : SMap Nat
  /-- landed cords per (plan, cord) of this die in the attempt, for R150 -/
  landed : List (Nat × Nat)
  deriving DecidableEq, Repr

/-! ### Leaves (chapter 05) -/

/-- A loaded trigger entry (R130, R131). -/
structure Trig where
  slot : Nat
  w0 : Word
  w1 : Word
  /-- THRESHOLD as it stands -/
  threshold : Nat
  /-- cords issued so far -/
  issued : Nat
  armed : Bool
  /-- it has fired once, R134 -/
  fired : Bool
  /-- pre-heat raised for the present threshold, R134 -/
  preheated : Bool
  deriving DecidableEq, Repr

/-- What a firing issues (R103, R131). -/
inductive FireKind where
  | data
  | count
  | total
  deriving DecidableEq, Repr

/-- One cord waiting in the firing queue (R132). -/
structure Firing where
  slot : Nat
  plan : Nat
  cord : Nat
  kind : FireKind
  deriving DecidableEq, Repr

/-- A read beat: beat address [21:6], half enables, and what it returns: none for the mask line, else the row of its low half (R125, R139). -/
structure RdBeat where
  addr : Nat
  half : BitVec 2
  isMask : Bool
  deriving DecidableEq, Repr

/-- The cord being read (R132, R139, R140). -/
structure ReadCtx where
  firing : Firing
  /-- beats not yet granted -/
  want : List RdBeat
  /-- beats granted, data not yet returned -/
  wait : List RdBeat
  /-- bytes returned: scratchpad address -> byte, for the rows -/
  got : List (Nat × List Byte)
  mask : BitVec 256
  maskKnown : Bool
  /-- rows of the cord -/
  rows : Nat
  /-- byte address of row 0 in the slot -/
  base : Nat
  /-- RESTORE read of the mirror bank (R395): step number s and the stand-in's die index -/
  restore : Option (BitVec 48 × Nat)
  /-- its staging stall has been logged, R144 -/
  stalled : Bool
  /-- the read was given up: its held request stays until it is granted, and what returns is discarded, R126, R182 -/
  void : Bool
  deriving DecidableEq, Repr

/-- What a write beat belongs to. -/
inductive WrKind where
  | row
  | record
  | stepRec
  | sealRec
  | restoreRow
  deriving DecidableEq, Repr

/-- A write beat: beat address, byte enables, data (R125). -/
structure WrBeat where
  addr : Nat
  be : BitVec 64
  data : List Byte
  kind : WrKind
  deriving DecidableEq, Repr

/-- The landing or record in progress: landing slot, cord header, beats left (R148, R149). -/
structure WriteCtx where
  slot : Nat
  cord : Option Cord
  beats : List WrBeat
  /-- its landing stall has been logged, R151 -/
  stalled : Bool
  /-- the landing was given up: its held request stays until it is granted, and nothing follows from it, R126, R182 -/
  void : Bool
  deriving DecidableEq, Repr

/-- A loaded landing entry (R145, R152). -/
structure Land where
  slot : Nat
  w0 : Word
  w1 : Word
  /-- the permit has been met in the step, R152 -/
  met : Bool
  /-- the holding buffer sees it, R152 -/
  visible : Bool
  deriving DecidableEq, Repr

/-- A cord for a leaf: waiting to land, or, while its permit is not met, held by the die in a kiln buffer (R152). -/
structure LandItem where
  slot : Nat
  /-- the cord buffer that holds it; none once it has left kiln memory -/
  buf : Option Nat
  /-- the number of the ring item that brought it: cords of an entry with a permit land in this order, R152 -/
  seq : Nat
  cord : Cord
  deriving DecidableEq, Repr

/-- Tally record (R407, R439). -/
structure Tally where
  slot : Nat
  step : BitVec 48
  attempt : BitVec 16
  plan : Nat
  status : BitVec 4
  expected : Nat
  first : Nat
  /-- cord indices landed -/
  landed : List Nat
  dups : BitVec 32
  lastTick : Word
  deriving DecidableEq, Repr

/-- A leaf interface (R125 to R158). -/
structure Leaf where
  /-- C0-C63, 32 bits, R128 -/
  counters : SMap (BitVec 32)
  /-- LI_STEP_OPEN, R125 -/
  stepOpen : Bool
  /-- LI_STEP_OPEN falls after the seal record's bump, R369 -/
  sealing : Bool
  /-- loaded trigger entries, ascending slot, R130 -/
  trigs : List Trig
  /-- loaded staging ring entries, R136 -/
  rings : SMap Word
  /-- loaded landing entries, ascending slot, R145 -/
  lands : List Land
  /-- the firing queue, R132 -/
  fireQ : List Firing
  /-- the cord being read, R132 -/
  reading : Option ReadCtx
  /-- RESTORE reads commanded by the plan engine, R395 -/
  restoreQ : List ReadCtx
  /-- the landing or record being written, R148 -/
  writing : Option WriteCtx
  /-- records to write before any landing, R175, R369 -/
  recQ : List WriteCtx
  /-- cords waiting to land, R149 -/
  landQ : List LandItem
  /-- cords held for a permit, R152 -/
  held : List LandItem
  /-- GATHER: plan -> sampled L, R102 -/
  gatherL : SMap Nat
  /-- GATHER: plan -> rows actually read so far, R103 -/
  gatherRead : SMap Nat
  /-- LI_CNT_RDATA of the last READ, R127 -/
  cntRdata : BitVec 32
  /-- LI_CNT_RVALID was pulsed by the last counter operation, R127 -/
  cntRvalid : Bool
  /-- tally of the current attempt, R407 -/
  tally : List Tally
  /-- tally of the previous attempt -/
  tallyPrev : List Tally
  deriving DecidableEq, Repr

/-- Latched tally words T1-T3 of a segment and the record they belong to (R440). -/
structure Shadow where
  key : Nat
  t1 : Word
  t2 : Word
  t3 : Word
  deriving DecidableEq, Repr

/-! ### Links (chapter 08) and channels (chapter 09) -/

/-- Link states (KX_PORT_STATUS, KX_MODULE_STATUS). -/
inductive LState where
  | down
  | training
  | up
  | degrading
  | retraining
  | failed
  | disabled
  deriving DecidableEq, Repr

/-- A flit without the fields that every sending rewrites (R220): channel, kind bits, 248 body bytes. -/
structure Flit where
  vc : Nat
  ctrl : Bool
  soc : Bool
  eoc : Bool
  seqd : Bool
  seq : BitVec 12
  body : List Byte
  /-- injected corruption: byte offset and mask, before FLIT_CRC (CORRUPT_CORD) or after it (CORRUPT_FLIT), R425 -/
  flipCord : Option (Nat × BitVec 24)
  flipFlit : Option (Nat × BitVec 24)
  /-- DROP: kept for replay but not sent, R425 -/
  dropped : Bool
  /-- credits that its header returns, as it first left: channel and count, R254 -/
  creds : Option (Nat × Nat)
  /-- the PLAN_INDEX and STEP[15:0] of its cord, by which an injector matches it, R424 -/
  plan : Nat
  step : Nat
  /-- the last flit of the whole cord: on a protocol 2 port the last of its second half, R209, R248 -/
  last : Bool
  deriving DecidableEq, Repr

/-- A cord queued on a channel of a transmitter: the cord and the flits already granted (R222, R255). -/
structure TxCord where
  cord : Cord
  sent : Nat
  /-- HALL_PEERS entry on an Ethernet port, 0 elsewhere -/
  flow : Nat
  /-- a re-send under R44 or R246, on which no injector acts (R423) -/
  again : Bool
  /-- a part-sent cord of an abandoned attempt, which is finished but not re-sent, R251 -/
  void : Bool
  /-- flits of it that an injector has examined before their grant, R424 -/
  seen : Nat := 0
  /-- it crosses this die between two others of its package, R212 -/
  relay : Bool := false
  /-- in place of a cord, a drain marker that crosses a relay in the order of its channel, R212, R250 -/
  mark : Option Msg
  deriving DecidableEq, Repr

/-- A cord whose last flit has been granted and that the link has not acknowledged (R209): kept for R246. -/
structure Unacked where
  vc : Nat
  flow : Nat
  cord : Cord
  deriving DecidableEq, Repr

/-- One virtual channel of a link (R252 to R255). -/
structure Chan where
  /-- cords waiting to be sent, oldest first -/
  queue : List TxCord
  /-- credits held for the peer's receive buffer, R254 -/
  credits : Nat
  /-- flits accepted whose credits have not been returned, R254 -/
  rxHeld : Nat
  /-- bytes of the cord being received, none between cords, R222 -/
  partialRx : Option (List Byte)
  /-- the DRR deficit of an Ethernet port, bytes, R258 -/
  deficit : Nat
  deriving DecidableEq, Repr

/-- A unit of a hall flow waiting for its acknowledgement (R237, R239). -/
structure HallUnit where
  seq : BitVec 32
  vc : Nat
  /-- FRAME_TYPE: 0 a cord, 2 DRAIN, 3 MGMT -/
  type : Nat
  /-- the bodies of its frames: two for a cord -/
  bodies : List (List Byte)
  /-- its cord, while R246 would re-send it -/
  cord : Option Cord
  /-- a re-send under R44 or R246, on whose first transmission no injector acts, R423 -/
  again : Bool
  /-- an injector has examined the frame that goes next, R424 -/
  seen : Bool := false
  /-- its cord buffer in the retransmit half of the hall reserve, R190, R241 -/
  buf : Nat
  /-- frames of it that wait to be granted -/
  resend : List Nat
  /-- times it has been sent -/
  sends : Nat
  /-- places of its first and its last transmission in the order of the flow's transmissions, R239 -/
  firstTx : Nat
  lastTx : Nat
  deriving DecidableEq, Repr

/-- A frame in the transmit queue of an Ethernet port; its ACK fields are written when it leaves (R236, R258). -/
structure EthFrame where
  flow : Nat
  type : Nat
  vc : Nat
  frag : Nat
  seq : BitVec 32
  body : List Byte
  /-- injected corruption: byte offset in the body and mask, or in the bytes after the EtherType, R425 -/
  flipBody : Option (Nat × BitVec 24)
  flipFrame : Option (Nat × BitVec 24)
  dropped : Bool
  deriving DecidableEq, Repr

/-- A unit being received or held above a gap (R240, R241). -/
structure HallHeld where
  seq : BitVec 32
  vc : Nat
  type : Nat
  frag0 : Option (List Byte)
  frag1 : Option (List Byte)
  /-- DRAIN or MGMT body -/
  whole : Option (List Byte)
  /-- its cord has been discarded under R182: the unit counts as received and delivers nothing -/
  void : Bool
  /-- an uncorrectable word was found in its buffer, R203 -/
  bad : Bool := false
  /-- the cord buffer that it is written into: of the reorder half of the hall reserve, or that in which it will be delivered, R189, R241 -/
  buf : Nat
  deriving DecidableEq, Repr

/-- A hall flow (R237 to R242): state 0 not configured, 1 establishing, 2 up, 3 down. -/
structure Flow where
  state : Nat
  /-- SEQ of the next unit sent -/
  nextSeq : BitVec 32
  /-- units outstanding, oldest first -/
  units : List HallUnit
  /-- next unit expected in order -/
  rxAck : BitVec 32
  /-- units held above a gap, or the unit at `rxAck` with one fragment -/
  heldUnits : List HallHeld
  /-- an ACK is owed -/
  ackOwed : Bool
  /-- transmissions made on the flow -/
  txCount : Nat
  /-- ticks of units first sent and of retransmissions within the last second, R401 -/
  txTicks : List Nat
  reTicks : List Nat
  /-- flow-view counters UNITS_TX ... DISCARD_PAUSE by number 0-10, R437 -/
  ctr : SMap Nat
  deriving DecidableEq, Repr

/-- A port or module controller. Fields that only ports use stay at their defaults on modules. -/
structure LinkSt where
  /-- STATE -/
  state : LState
  /-- trained lane rate code, 2 bits -/
  rate : BitVec 2
  /-- WIDTH code, 2 bits -/
  width : BitVec 2
  /-- LANES_GOOD, 8 bits -/
  lanesGood : BitVec 8
  /-- ROLE, 3 bits -/
  role : BitVec 3
  /-- STANDS_FOR, 5 bits [0x1F] -/
  standsFor : BitVec 5
  /-- peer confirmed by LINK_ID, 24 bits -/
  peerInst : BitVec 24
  /-- peer port or module confirmed, 8 bits -/
  peerPort : BitVec 8
  /-- module: trained version and rate, RELAYING -/
  version : Bool
  rateGts : BitVec 6
  relaying : Bool
  /-- KX_PORT_FLOW_SEL, 7 bits -/
  flowSel : BitVec 7
  /-- receive depths in units of 8 flits, VC0-VC4, R316 -/
  depths : List Nat
  /-- the five channels, VC0 first -/
  chans : List Chan
  /-- control messages waiting, R223 -/
  ctrlQ : List Msg
  /-- management messages waiting, R224 -/
  mgmtQ : List Msg
  /-- channel whose turn it is, and the grants it has taken in the turn, R255 -/
  turn : Nat
  taken : Nat
  /-- the control flit took VC4's last shared turn, R256 -/
  vc4Ctrl : Bool
  /-- transmit queue, at most 64 flits, R257 -/
  txq : List Flit
  /-- SEQ of the next sequenced flit, 12 bits, R227 -/
  nextSeq : BitVec 12
  /-- replay buffer: flits sent and not acknowledged, oldest first, at most 512, R227 -/
  replay : List Flit
  /-- flits of a go-back-N replay still to resend, R229 -/
  resend : List Flit
  /-- ACK_SEQ for the reverse direction, 12 bits [4,095], R227 -/
  ackSeq : BitVec 12
  /-- NAK is set in the next flit, R228 -/
  nak : Bool
  /-- a sequenced flit was refused and the expected SEQ has not arrived, R228 -/
  nakOut : Bool
  /-- sequenced flits accepted since ACK_SEQ last left, R227 -/
  ackDue : Nat
  /-- consecutive replays without ACK_SEQ advancing, R229 -/
  replays : Nat
  /-- ticks of fast retrains within the last second, R229 -/
  retrains : List Nat
  /-- ticks of replays within the last second, R401 -/
  replayTicks : List Nat
  /-- width and lane mask of a degrade in progress: requested here, or agreed, R230 -/
  degrade : Option (BitVec 8 × BitVec 8)
  /-- lanes given up since training, R230 -/
  lost : BitVec 8
  /-- the lane rate code being tried after RATE_FALLBACK, R214 -/
  tryRate : Option (BitVec 2)
  /-- a full retrain for re-widening is in progress: the width kept if it fails, R231 -/
  rewiden : Option (BitVec 2 × BitVec 8)
  /-- symbol errors per lane in the window, R230, R453 -/
  laneErr : SMap Nat
  /-- SPARE_TAKE sent for this port number, R244 -/
  taking : Option Nat
  /-- the position that this Ethernet spare takes once its SPARE_ACK has left, R244 -/
  answering : Option Nat := none
  /-- protocol errors that a module delivered, R51, R90; a port's are in PROTOCOL_ERRORS -/
  protoErrs : Nat := 0
  /-- an injector has examined the VC4 flit or TIMING frame that goes next, R424 -/
  vc4Seen : Bool := false
  /-- flits or frames that left at the last ember edge, first sent first -/
  wire : List (List Byte)
  /-- flits of the group being filled, and the group counter, R226 -/
  group : List (List Byte)
  groupNo : BitVec 8
  /-- symbols of the codeword pairs that left at the last ember edge, each with its lane, R226 -/
  line : List (Nat × BitVec 10)
  /-- bits of each lane that filled no 256-bit word by the last ember edge, R452 -/
  linePart : SMap (List Bool)
  /-- hall flows by HALL_PEERS entry -/
  flows : SMap Flow
  /-- flow-view DISCARD counters of unattributed frames, R437 -/
  strayCtr : SMap Nat
  /-- transmit queue of an Ethernet port, at most 16,384 bytes of frames, R258 -/
  txFrames : List EthFrame
  /-- TIMING frames waiting on VC4, with their flows, R258, R281 -/
  timingQ : List (Nat × List Byte)
  /-- messages per flow waiting for a frame; true marks a control message, R237, R250 -/
  flowMgmt : SMap (List (Bool × Msg))
  /-- protocol 2 halves waiting to be joined, with their channels, R248 -/
  halves : List (Nat × Cord)
  /-- cords sent and not acknowledged, oldest first, R209 -/
  unacked : List Unacked
  /-- ADAPTER or port failure reason of event 0x0604, 0 for none -/
  failReason : Nat
  deriving DecidableEq, Repr

/-- A flit on a ring: the ring item it belongs to, its offset, its source stop, the half it is on, and the seam lanes that it has still to
cross, true for an eastbound one (R262, R263, R268). -/
structure RingFlit where
  item : Nat
  flit : Nat
  src : Nat
  east : Bool
  cross : List Bool
  deriving DecidableEq, Repr

/-- A cord queued at a ring stop for one or more destination stops (R263, R267). -/
structure RingItem where
  id : Nat
  src : Nat
  dests : List Nat
  vc : Nat
  flits : Nat
  /-- offsets injected -/
  sent : List Nat
  /-- offsets ejected everywhere -/
  arrived : Nat
  /-- it belongs to an abandoned attempt: what is on the rings is delivered and discarded, R273 -/
  void : Bool
  /-- a re-send under R44 or R246, on which no injector acts (R423) -/
  again : Bool
  /-- its wait at the seam has been logged, R296 -/
  waited : Bool
  /-- what reaches each destination -/
  item : Arrival
  /-- logical leaf deliveries: (physical tile, landing slot) at segment stops -/
  leaves : List (Nat × Nat)
  deriving DecidableEq, Repr

/-- A cord or message that stays with its sender while no link of the set to its peer works (R209, R246): the unit that has it, the instance
and level it goes to, and its channel. -/
structure Parked where
  unit : Nat
  inst : Nat
  level : Nat
  vc : Nat
  body : Body
  again : Bool
  deriving DecidableEq, Repr

/-- Rings and seam bridge (R262 to R273). -/
structure Fabric where
  /-- cords queued at their source stops, oldest first -/
  items : List RingItem
  /-- flits on the stages of a ring 0-7, at most 16 with those in its lanes, R262 -/
  flight : SMap (List RingFlit)
  /-- seam lanes, at most 8 flits of 4 beats each, oldest first: 2 * ring for the eastbound one, 2 * ring + 1 for the westbound, R268 -/
  lanes : SMap (List RingFlit)
  /-- reservations per ring, in order: stop numbers, R266 -/
  reserved : SMap (List Nat)
  /-- ejection credits taken: ((dest * 49 + source) * 5 + vc) * 2 + direction -> flits, R264 -/
  ejectUsed : SMap Nat
  /-- arbitration turn per stop and ring (8 * stop + ring): channel and grants, R264 -/
  turns : SMap (Nat × Nat)
  /-- beats that a segment stop has injected beyond its share so far: stop -> beats, R265 -/
  segBeats : SMap Nat
  /-- flits in the ejection buffers of their stops, off the rings 0-7, that wait for a share of their segments, R264, R265 -/
  ejection : SMap (List RingFlit)
  /-- what waits at its sender for a link, oldest first, R209 -/
  parked : List Parked
  /-- next item number -/
  nextId : Nat
  deriving DecidableEq, Repr

/-! ### The whole instance -/

/-- Tables of D63 (R443, R444) and group domains. -/
structure Tables where
  /-- KX_MEMBER; an unlisted index reads STATE 0b00, INSTANCE 0xFF_FFFF -/
  members : SMap Word
  /-- the same record as tree build, stand-ins and RE-FORM leave it, which a restored record must match, R376 -/
  built : SMap Word
  /-- KX_GROUP_EPOCH, 16 bits each -/
  epochs : SMap (BitVec 16)
  /-- KX_GROUP_DOMAIN: DOMAIN_GEN and DOMAIN_FIRST_STEP -/
  domains : SMap (BitVec 16 × BitVec 48)
  deriving DecidableEq, Repr

/-- The state of one KX4 instance. -/
structure State where
  params : Params
  pins : Pins
  rp : RegPort
  log : AshLog
  freeze : Freeze
  inject : Inject
  kindle : Kindle
  image : Option Image
  time : Time
  power : Power
  step : Step
  faults : Faults
  kiln : Kiln
  /-- leaf interfaces by physical tile -/
  leaves : SMap Leaf
  /-- tally shadows by segment, R440 -/
  shadows : SMap Shadow
  /-- link units by number: 0-17 ports, 18-23 modules -/
  links : SMap LinkSt
  fabric : Fabric
  tables : Tables
  /-- every 48-bit counter of the catalogue by register offset, R417, R435 -/
  ctr : SMap Nat
  /-- delivered cords and messages that wait to be processed, oldest first -/
  inbox : List Arrival
  /-- the model's own counter of free values used (log 2) -/
  free : Nat
  /-- commands that are waiting, first in, first out -/
  pending : List Instr
  deriving DecidableEq, Repr

/-! ### Values at reset -/

/-- A domain that is OFF with every signal low. -/
def Dom.init : Dom :=
  { st := .off, req := false, ret := false, gnt := false, wanted := false, lateCounted := false, leave := none }

/-- D0, D62 and D63: WARM, requested and granted (R449). -/
def Dom.always : Dom :=
  { st := .warm, req := true, ret := false, gnt := true, wanted := false, lateCounted := false, leave := none }

/-- A cleared injector; REORDER_DEPTH resets to 1. -/
def Injector.init : Injector :=
  { ctrl := 0, matchReg := 0, param := 0x02000000, seed := 0, armed := false, matched := 0, injected := 0,
    holding := false, reorder := none }

/-- A leaf interface with nothing loaded. -/
def Leaf.init : Leaf :=
  { counters := [], stepOpen := false, sealing := false, trigs := [], rings := [], lands := [], fireQ := [],
    reading := none, restoreQ := [], writing := none, recQ := [], landQ := [], held := [], gatherL := [],
    gatherRead := [], cntRdata := 0, cntRvalid := false, tally := [], tallyPrev := [] }

/-- An empty channel. -/
def Chan.init : Chan :=
  { queue := [], credits := 0, rxHeld := 0, partialRx := none, deficit := 0 }

/-- A flow that is not configured. -/
def Flow.init : Flow :=
  { state := 0, nextSeq := 1, units := [], rxAck := 1, heldUnits := [], ackOwed := false, txCount := 0,
    txTicks := [], reTicks := [], ctr := [] }

/-- A link unit after reset: ports 0-17 and modules 18-23 differ in their receive depths (KX_PORT_DEPTHS, KX_MODULE_DEPTHS). -/
def LinkSt.init (k : Nat) : LinkSt :=
  { state := .down, rate := 0, width := 0, lanesGood := 0, role := 0, standsFor := 0x1F, peerInst := 0, peerPort := 0,
    version := false, rateGts := 0, relaying := false, flowSel := 0,
    depths := if k < 18 then [40, 40, 32, 12, 4] else [20, 20, 16, 6, 2],
    chans := [Chan.init, Chan.init, Chan.init, Chan.init, Chan.init], ctrlQ := [], mgmtQ := [], turn := 0, taken := 0,
    vc4Ctrl := false, txq := [], nextSeq := 0, replay := [], resend := [], ackSeq := 4095, nak := false, nakOut := false,
    ackDue := 0, replays := 0, retrains := [], replayTicks := [], degrade := none, lost := 0, tryRate := none, rewiden := none,
    laneErr := [], taking := none, wire := [], group := [], groupNo := 0, line := [], linePart := [], flows := [], strayCtr := [], txFrames := [],
    flowMgmt := [], timingQ := [], halves := [], unacked := [], failReason := 0 }

/-- The event that logs a reset as a tick discontinuity (R277, R299, R449): TICK_STEP, wide, from the old tick to 0. -/
def LogEvent.reset (old : Word) (origin : BitVec 24) : LogEvent :=
  { time := 0, event := 0x0201, sev := 0, fwd := false, unit := 0x53, origin := origin, e2 := old, argA := 0, argB := 0, ctx := 0 }

/-- Registers of the identity and ember regions and every unit at their reset values, with RST_N released. -/
def State.reset : State :=
  { params := { hearthOnly := false, rdLatency := 4, pmaTxLatPs := [0, 0, 0], pmaRxLatPs := [0, 0, 0],
                fdiTxLatPs := [0, 0, 0, 0, 0, 0], fdiRxLatPs := [0, 0, 0, 0, 0, 0] },
    pins := { rstN := true, testMode := false, needRstPulse := false, thrAckW := false, thrAckE := false, wrappers := [], testNo := 0 },
    rp := { ignored := 0, cold := 0, decodeErr := 0, lastKind := 0, lastOffset := 0, rdata := 0, err := false, ack := false },
    log := { entries := [], writeSeq := 0, readSeq := 0, stopMode := false, fwdMinSev := 7, fwdTarget := 0xFFFFFF,
             threshold := 0x6000, dropped := 0, overrun := 0, fwdDropped := 0, fwdSent := 0,
             queue := [LogEvent.reset 0 0xFFFFFF], lostCount := 0, lostFirst := none, filling := true,
             disabled := false },
    freeze := { tickReg := 0, trigEn := false, trigSystem := false, counterBase := 0, trigEvent := 0, refuse := 0,
                pendingSys := none, pendingLocal := none, lastId := 0, held := false, late := false, source := 0,
                freezeId := 0, lateTicks := 0, captureTime := 0, captured := [] },
    inject := { enable := false, units := [] },
    kindle := { state := .cold, stage := 0, failCode := 0, failSection := 0, failIndex := 0, count := 0,
                requested := false, anchorLocked := false, instanceId := 0xFFFFFF, imageBase := 0, nvmCtrl := 0,
                nvmInfo := 0, addr4Ok := false, anchor := [], disabled := [], disabledTaken := 0, discovered := false, header := [], imageBytes := [],
                reread := false, spares := 0, logical := [], durations := [], skews := [], peerSeen := [],
                afterWake := false, keepEq := [], oldPorts := [] },
    image := none,
    time := { tick := 0, frac := 0, ratePpb := 0, state := .free, sysLocked := false, subtreeLocked := false,
              hops := 15, upstream := none, lockGen := 0, master := 0xFFFFFF, sysConfirm := false,
              confirmedOnce := false, offsetPs := 0, delayPs := 0, samples := 0, goodRun := 0, holdoverSince := 0,
              firstSample := true, exch := [], latchFrac := 0, latchSub := 0, latchValid := false, launchTick := 0,
              launchGen := 0, refuse := 0, launchPass := 0, launchPending := false, lastDuration := 0, exceptions := 0,
              exceptionsNow := 0 },
    power := { doms := [(0, Dom.always), (62, Dom.always), (63, Dom.always)], pllW := false, pllE := false,
               bankPending := false, banked := false, gapBanked := false, eastWanted := false, eastClosed := false,
               eastStopped := false, coolIdle := 0x07D0, openLead := 0x0C80, stepW := 0, stepE := 0, codeW := none,
               codeE := none, coldPathWaits := 0, demandWakes := 0, throttleChanges := 0, grantLate := 0, holds := [],
               preheats := [], preheatDue := [], leadRaised := false, waking := false,
               coldSince := [], throttled := [], reqSince := [], eastStopWaits := false, bankDrains := false },
    step := { state := .idle, stopPending := false, short := false, attempt := 0, number := 0, seedLo := 0, seedHi := 0,
              launch := 0, pausedBase := 0, openW := false, openE := false, firstOut := true, neverLaunched := true, bcastShort := false,
              unclean := 0, uncleanNext := 0, exhaustHalt := false, flags := 0, nfSkip := false, nfHalt := false,
              nfPlans := [], digestCur := [], digestPrev := [], planFlags := [], contributed := false,
              earlySent := false, mirrorOut := [], cols := [], decided := none, shortSent := false, broadcast := false, checkFed := false,
              draining := [], drained := [], lastOutcome := 0, replayRun := 0, lastFlags := 0, seen := 0, lastUnclean := 0,
              lastFirstNf := 0xFFFFFFFF, lastDigest := 0, nSealed := 0, nSkipped := 0, nReplayed := 0, nEarly := 0 },
    faults := { dieFailed := false, cause := 0, silenced := false, hold := none, awaitAck := false, hostDone := false,
                paused := false, pausedSince := 0, pausedTicks := 0, warned := [], progress := [], role := .none, standinIndex := 0, pending := 0,
                    spliceTile := 0,
                recoveryLimit := 0x003C, pool := [], splices := [], moved := [], retired := 0, myDie := none,
                changeSeq := 0, lastSeq := 0, gone := [], heldBack := [], epochBad := false, held := false, reforming := [], pausedBy := 0,
                    holds := [], offers := [],
                reports := [], collecting := none, restoreDue := [], commit := none, restoring := [] },
    kiln := { unitWorking := 0xFF, unitWarn := 0, unitPredicted := 0, unitDue := 0, retryTicks := [],
              bankWorking := 0xFF, bankWarn := 0, bankDue := [], bankDueNext := [], bufRetired := [], wordCe := [],
              bankCe := [], bankUe := [], scrubPos := [], used := [], nodes := [], passHolds := [], waiting := [],
              admitted := [], armed := [], recoveryUsed := 0, early := [], places := [], groups := [], removed := [], roots := [],
              standbyUsed := [], landed := [] },
    leaves := [],
    shadows := [],
    links := [],
    fabric := { items := [], flight := [], lanes := [], reserved := [], ejectUsed := [], turns := [], segBeats := [], ejection := [], parked := [],
                nextId := 0 },
    tables := { members := [], built := [], epochs := [], domains := [] },
    ctr := [],
    inbox := [],
    free := 0,
    pending := [] }

end Sys2Proof.Machine
end

