-- ==== Sys2Proof/Machine/Bits.lean ====
section
/-! DEFINITION. Bits.lean: sparse maps, bit fields, byte order and the two cyclic redundancy checks. -/

namespace Sys2Proof.Machine

/-! ### Sparse maps -/

/-- The value at key `k`; `d` where the key is not listed. -/
def smGet {α : Type} (d : α) : SMap α → Nat → α
  | [], _ => d
  | (k', v) :: m, k => if k = k' then v else smGet d m k

/-- Every entry but those at `k`; in canonical form there is at most one. -/
def smErase {α : Type} (m : SMap α) (k : Nat) : SMap α := m.filter (fun p => p.1 != k)

/-- Put `v` at `k`, in the canonical form: keys ascending, no entry equal to the default `d`. -/
def smSet {α : Type} [DecidableEq α] (d : α) : SMap α → Nat → α → SMap α
  | [], k, v => if v = d then [] else [(k, v)]
  | (k', v') :: m, k, v =>
    if k < k' then (if v = d then smErase ((k', v') :: m) k else (k, v) :: (k', v') :: m)
    else if k = k' then (if v = d then smErase m k else (k, v) :: m)
    else (k', v') :: smSet d m k v

/-- Put `v` at `k` in ascending key order, in a map in which an unlisted key means nothing is there. -/
def smPut {α : Type} : SMap α → Nat → α → SMap α
  | [], k, v => [(k, v)]
  | (k', v') :: m, k, v =>
    if k < k' then (k, v) :: (k', v') :: m
    else if k = k' then (k, v) :: m
    else (k', v') :: smPut m k v

/-- Change the value at `k` by `f`. -/
def smMod {α : Type} [DecidableEq α] (d : α) (m : SMap α) (k : Nat) (f : α → α) : SMap α :=
  smSet d m k (f (smGet d m k))

/-- The canonical form: keys strictly ascending from `lo`, no listed default. -/
def smWfFrom {α : Type} [DecidableEq α] (d : α) : Nat → SMap α → Bool
  | _, [] => true
  | lo, (k, v) :: m => decide (lo ≤ k) && decide (v ≠ d) && smWfFrom d (k + 1) m

/-- A sparse map is in canonical form. -/
def smWf {α : Type} [DecidableEq α] (d : α) (m : SMap α) : Bool := smWfFrom d 0 m

/-! ### Fields of words -/

/-- The `len` bits of `w` from bit `lo` up, as a number (R6). -/
def fieldOf (w : Word) (lo len : Nat) : Nat := (w.toNat >>> lo) % 2 ^ len

/-- Bit `i` of `w`. -/
def bitOf (w : Word) (i : Nat) : Bool := w.getLsbD i

/-- `v` (cut to `len` bits) at bit `lo` of a word that is 0 elsewhere. -/
def putField (lo len v : Nat) : Word := BitVec.ofNat 64 ((v % 2 ^ len) <<< lo)

/-- `w` with its `len` bits from `lo` up replaced by `v`. -/
def setField (w : Word) (lo len v : Nat) : Word :=
  (w &&& ~~~(putField lo len (2 ^ len - 1))) ||| putField lo len v

/-- A Bool as a bit at position `i`. -/
def bitAt (i : Nat) (b : Bool) : Word := if b then BitVec.ofNat 64 (1 <<< i) else 0

/-- Add and hold at the top of the width (R434, R417). -/
def satAdd {n : Nat} (a : BitVec n) (k : Nat) : BitVec n :=
  if a.toNat + k < 2 ^ n then BitVec.ofNat n (a.toNat + k) else BitVec.allOnes n

/-- `n` as a `w`-bit value, held at the top of the width. -/
def satOf (w n : Nat) : BitVec w := if n < 2 ^ w then BitVec.ofNat w n else BitVec.allOnes w

/-! ### Bytes -/

/-- `n` bytes of a number, least significant first (R6). -/
def leBytes : Nat → Nat → List Byte
  | 0, _ => []
  | n + 1, v => BitVec.ofNat 8 v :: leBytes n (v / 256)

/-- The number that bytes spell, least significant first (R6). -/
def ofLe : List Byte → Nat
  | [] => 0
  | b :: bs => b.toNat + 256 * ofLe bs

/-- The number that bytes spell, most significant first (R320). -/
def ofBe (bs : List Byte) : Nat := bs.foldl (fun a b => 256 * a + b.toNat) 0

/-- The eight bytes of a word (R6). -/
def wordBytes (w : Word) : List Byte := leBytes 8 w.toNat

/-- The word at byte offset `off` of a byte list; bytes past its end count as 0. -/
def wordAt (bs : List Byte) (off : Nat) : Word := BitVec.ofNat 64 (ofLe ((bs.drop off).take 8))

/-- `n` zero bytes. -/
def zeros (n : Nat) : List Byte := List.replicate n 0

/-- The `len` bytes from `off`. -/
def slice (bs : List Byte) (off len : Nat) : List Byte := (bs.drop off).take len

/-- `bs` followed by zero bytes up to length `n`, and cut there. -/
def padTo (bs : List Byte) (n : Nat) : List Byte := (bs ++ zeros (n - bs.length)).take n

/-- A byte list cut in pieces of `n` bytes, at most `k` of them. -/
def chunks (n : Nat) : Nat → List Byte → List (List Byte)
  | 0, _ => []
  | k + 1, bs => if bs.isEmpty then [] else bs.take n :: chunks n k (bs.drop n)

/-- n ÷ m rounded up. -/
def ceilDiv (n m : Nat) : Nat := (n + m - 1) / m

/-- `n` rounded up to a multiple of `m`. -/
def roundUp (n m : Nat) : Nat := ceilDiv n m * m

/-! ### CRC-32C (R218) and CRC-24 (R221) -/

/-- One reflected shift of CRC-32C: polynomial 0x1EDC_6F41 reflected is 0x82F6_3B78. -/
def crc32cShift (c : BitVec 32) : BitVec 32 :=
  if c.getLsbD 0 then (c >>> 1) ^^^ 0x82F63B78#32 else c >>> 1

/-- `n` shifts. -/
def crc32cShifts : Nat → BitVec 32 → BitVec 32
  | 0, c => c
  | n + 1, c => crc32cShifts n (crc32cShift c)

/-- CRC-32C of RFC 3720 over bytes in order (R218). -/
def crc32c (bs : List Byte) : BitVec 32 :=
  ~~~(bs.foldl (fun c b => crc32cShifts 8 (c ^^^ b.setWidth 32)) 0xFFFFFFFF#32)

/-- One shift of CRC-24: polynomial 0x86_4CFB, no reflection. -/
def crc24Shift (c : BitVec 24) : BitVec 24 :=
  if c.getLsbD 23 then (c <<< 1) ^^^ 0x864CFB#24 else c <<< 1

/-- `n` shifts. -/
def crc24Shifts : Nat → BitVec 24 → BitVec 24
  | 0, c => c
  | n + 1, c => crc24Shifts n (crc24Shift c)

/-- CRC-24 of RFC 4880 over bytes in order (R221). -/
def crc24 (bs : List Byte) : BitVec 24 :=
  bs.foldl (fun c b => crc24Shifts 8 (c ^^^ BitVec.shiftLeft (b.setWidth 24) 16)) 0xB704CE#24

/-! ### The Ethernet FCS (R234) -/

/-- One reflected shift of the CRC-32 of IEEE 802.3. -/
def crc32Shift (c : BitVec 32) : BitVec 32 :=
  if c.getLsbD 0 then (c >>> 1) ^^^ 0xEDB88320#32 else c >>> 1

/-- `n` shifts. -/
def crc32Shifts : Nat → BitVec 32 → BitVec 32
  | 0, c => c
  | n + 1, c => crc32Shifts n (crc32Shift c)

/-- The frame check sequence of IEEE 802.3 over bytes in order. -/
def crc32 (bs : List Byte) : BitVec 32 :=
  ~~~(bs.foldl (fun c b => crc32Shifts 8 (c ^^^ b.setWidth 32)) 0xFFFFFFFF#32)

/-! ### Lists -/

/-- `l` with its `i`-th element replaced. -/
def setAt {α : Type} (l : List α) (i : Nat) (v : α) : List α := l.set i v

/-- `l` with its `i`-th element changed by `f`. -/
def modAt {α : Type} (l : List α) (i : Nat) (f : α → α) : List α := l.modify i f

/-- `l` without its `i`-th element. -/
def dropAt {α : Type} (l : List α) (i : Nat) : List α := l.eraseIdx i

/-- Insert `n` in an ascending list without repeats. -/
def insertNat (n : Nat) : List Nat → List Nat
  | [] => [n]
  | m :: l => if n < m then n :: m :: l else if n = m then m :: l else m :: insertNat n l

/-- The distinct elements, ascending. -/
def sortedSet (l : List Nat) : List Nat := l.foldr insertNat []

/-- Insert keeping order, with repeats. -/
def insertSorted (n : Nat) : List Nat → List Nat
  | [] => [n]
  | m :: l => if n ≤ m then n :: m :: l else m :: insertSorted n l

/-- Ascending order, repeats kept. -/
def sortNat (l : List Nat) : List Nat := l.foldr insertSorted []

/-- The eighth smallest of the values held: the lower of the two middle values of 16 (R402). -/
def median16 (l : List Nat) : Nat := (sortNat l)[7]?.getD 0

/-- The position of `a` in a list of numbers. -/
def indexIn (a : Nat) (l : List Nat) : Option Nat := l.findIdx? (· == a)

/-- An integer as a 32-bit two's complement word. -/
def int32 (i : Int) : BitVec 32 := BitVec.ofInt 32 i

end Sys2Proof.Machine
end

