-- ==== Sys2Proof/Machine/Flags.lean ====
section
/-! DEFINITION. Flags.lean: the flag bits of W2[15:0] (R72), as numbers, and the reasons a step is unclean (R364). -/

namespace Sys2Proof.Machine

/-- NAN, bit 0. -/
def fNan : Nat := 0x1
/-- INF, bit 1. -/
def fInf : Nat := 0x2
/-- INVALID, bit 2. -/
def fInvalid : Nat := 0x4
/-- OVF, bit 3. -/
def fOvf : Nat := 0x8
/-- SAT, bit 4. -/
def fSat : Nat := 0x10
/-- EMPTY, bit 5. -/
def fEmpty : Nat := 0x20
/-- OOB, bit 6. -/
def fOob : Nat := 0x40
/-- DROP, bit 7. -/
def fDrop : Nat := 0x80
/-- RESIDUE, bit 8, an event flag. -/
def fResidue : Nat := 0x100
/-- LATE, bit 9, an event flag. -/
def fLate : Nat := 0x200
/-- Not a flag of the header: carried beside the flags inside the model where an application originates a non-finite value (R372). -/
def fOrig : Nat := 0x10000

/-- The flags that make an operation non-finite (R371). -/
def nonFinite (f : Nat) : Bool := decide (f % 8 ≠ 0)

/-- Unclean reasons of R364, as bits of the UNCLEAN word. -/
def uSplice : BitVec 32 := 0x1
def uStandIn : BitVec 32 := 0x2
def uResidue : BitVec 32 := 0x4
def uEcc : BitVec 32 := 0x8
def uLinkIntegrity : BitVec 32 := 0x10
def uModuleDown : BitVec 32 := 0x20
def uPowerFault : BitVec 32 := 0x40
def uRecoveryShort : BitVec 32 := 0x80
def uHearthSuccession : BitVec 32 := 0x100
def uFirebreak : BitVec 32 := 0x200
def uProtocol : BitVec 32 := 0x400
def uAttempt : BitVec 32 := 0x1000
def uDigest : BitVec 32 := 0x2000
def uCount : BitVec 32 := 0x4000

end Sys2Proof.Machine
end

