-- ==== Sys2Proof/Machine/Formats.lean ====
section
/-! DEFINITION. Formats.lean: the data formats of R51 to R53: row layout, exact decoding, the one rounding of R57, R58 and R82, and the
choice of an MX scale (R76). -/

namespace Sys2Proof.Machine

/-! ### Layout (R51 to R53) -/

/-- An MX format: codes 0x6 to 0xA. -/
def isMx (f : Nat) : Bool := decide (6 ≤ f) && decide (f ≤ 10)

/-- A plain floating-point format: codes 0x0 to 0x4. -/
def isFloat (f : Nat) : Bool := decide (f ≤ 4)

/-- A code that is not reserved: 0x0 to 0xA and RAW. -/
def fmtKnown (f : Nat) : Bool := decide (f ≤ 10) || decide (f = 15)

/-- Element bits of Table: Row and cord sizes; `ml` for MAXLOC pairs (R65). -/
def elemBits (ml : Bool) (f : Nat) : Nat :=
  if ml then (if f = 0 ∨ f = 5 then 64 else 32)
  else if f = 0 ∨ f = 5 then 32
  else if f = 1 ∨ f = 2 then 16
  else if f = 3 ∨ f = 4 ∨ f = 6 ∨ f = 7 then 8
  else if f = 8 ∨ f = 9 then 6
  else if f = 10 then 4
  else 16

/-- Row bytes; a RAW row is 64 bytes (R137). -/
def rowBytes (ml : Bool) (f : Nat) : Nat := 4 * elemBits ml f + (if isMx f && !ml then 1 else 0)

/-- F, the rows of a full cord. -/
def fullRows (ml : Bool) (f : Nat) : Nat :=
  if ml then (if f = 0 ∨ f = 5 then 64 else 128) else if f = 0 ∨ f = 5 then 128 else 256

/-- The pitch of a row in the scratchpad (R137): whole 32-byte halves. -/
def rowPitch (ml : Bool) (f : Nat) : Nat := roundUp (rowBytes ml f) 32

/-- The `w`-bit elements of a row held as one little-endian number (R53). -/
def rowElems (w row : Nat) : List Nat := (List.range 32).map (fun i => (row >>> (w * i)) % 2 ^ w)

/-- The number that elements of `w` bits make, element 0 lowest. -/
def joinElems (w : Nat) (l : List Nat) : Nat := l.foldr (fun x acc => (acc <<< w) + x % 2 ^ w) 0

/-- The E8M0 scale of an MX row: the byte after the elements (R53). -/
def rowScale (w row : Nat) : Nat := (row >>> (32 * w)) % 256

/-- An MX row from its scale and elements. -/
def mkMxRow (w scale : Nat) (l : List Nat) : Nat := (scale <<< (32 * w)) + joinElems w l

/-! ### Elements (Table: Data formats, Table: MX element parameters) -/

/-- The element format of an MX format, as a code of its own: E4M3 and E5M2 share the plain codes. -/
def elemFmt (f : Nat) : Nat := if f = 6 then 3 else if f = 7 then 4 else f

/-- Exponent bits of an element format. -/
def fmtE (f : Nat) : Nat :=
  if f = 0 ∨ f = 1 then 8 else if f = 2 ∨ f = 4 then 5 else if f = 3 then 4 else if f = 9 then 3 else 2

/-- Significand bits of an element format. -/
def fmtM (f : Nat) : Nat :=
  if f = 0 then 23 else if f = 1 then 7 else if f = 2 then 10 else if f = 3 ∨ f = 8 then 3
  else if f = 4 ∨ f = 9 then 2 else 1

/-- Exponent bias. -/
def fmtBias (f : Nat) : Nat :=
  if f = 0 ∨ f = 1 then 127 else if f = 2 ∨ f = 4 then 15 else if f = 3 then 7 else if f = 9 then 3 else 1

/-- The format has infinities. -/
def fmtHasInf (f : Nat) : Bool := decide (f = 0 ∨ f = 1 ∨ f = 2 ∨ f = 4)

/-- The code of the largest finite magnitude. -/
def fmtMax (f : Nat) : Nat :=
  if f = 0 then 0x7F7FFFFF else if f = 1 then 0x7F7F else if f = 2 then 0x7BFF else if f = 3 then 0x7E
  else if f = 4 then 0x7B else if f = 8 ∨ f = 9 then 0x1F else 0x7

/-- emax of Table: MX element parameters. -/
def fmtEmax (f : Nat) : Int :=
  if f = 3 then 8 else if f = 4 then 15 else if f = 9 then 4 else 2

/-- The sign bit of an element code. -/
def signBit (f : Nat) : Nat := 2 ^ (fmtE f + fmtM f)

/-- The code of infinity, without sign. -/
def infCode (f : Nat) : Nat := (2 ^ fmtE f - 1) <<< fmtM f

/-- Table: Canonical NaNs. -/
def canonNan (f : Nat) : Nat :=
  if f = 0 then 0x7FC00000 else if f = 1 then 0x7FC0 else if f = 2 then 0x7E00 else if f = 3 then 0x7F else 0x7E

/-- Put a sign on a magnitude code. -/
def withSign (f : Nat) (neg : Bool) (mag : Nat) : Nat := if neg then mag + signBit f else mag

/-- The exact value of an element code (R51, R58: subnormals are kept). -/
def decodeElem (f code : Nat) : FVal :=
  let neg := decide (signBit f ≤ code % (2 * signBit f))
  let mag := code % signBit f
  let ex := mag >>> fmtM f
  let man := mag % 2 ^ fmtM f
  if fmtHasInf f && decide (ex = 2 ^ fmtE f - 1) then (if man = 0 then .inf neg else .nan)
  else if f = 3 ∧ mag = 0x7F then .nan
  else if ex = 0 then .fin neg man (1 - (fmtBias f : Int) - (fmtM f : Int))
  else .fin neg (man + 2 ^ fmtM f) ((ex : Int) - (fmtBias f : Int) - (fmtM f : Int))

/-- The element is a NaN. -/
def fvIsNan : FVal → Bool
  | .nan => true
  | _ => false

/-- The element is infinite. -/
def fvIsInf : FVal → Bool
  | .inf _ => true
  | _ => false

/-- The increment decision of one rounding: `rem` of `2^sh` remains above the truncated `lo` (R57 ties to even; R82 keyed). -/
def roundsUp (key : Option Nat) (lo rem sh : Nat) : Bool :=
  match key with
  | none => decide (2 ^ sh < 2 * rem) || (decide (2 * rem = 2 ^ sh) && decide (lo % 2 = 1))
  | some u => decide (2 ^ 32 ≤ (rem * 2 ^ 32) >>> sh + u)

/-- The magnitude code of m·2^e rounded once, with an unbounded exponent above and the subnormal spacing below (R57, R58, R82). The
code may pass `fmtMax`. -/
def quantMag (f : Nat) (key : Option Nat) (m : Nat) (e : Int) : Nat :=
  if m = 0 then 0
  else
    let q := max ((Nat.log2 m : Int) + e - fmtM f) (1 - (fmtBias f : Int) - fmtM f)
    let k :=
      if q ≤ e then m <<< (e - q).toNat
      else
        let sh := (q - e).toNat
        let lo := m >>> sh
        if roundsUp key lo (m % 2 ^ sh) sh then lo + 1 else lo
    if k < 2 ^ fmtM f then k else (q + fmtM f + fmtBias f).toNat * 2 ^ fmtM f + (k - 2 ^ fmtM f)

/-- Round an exact value to a plain format with its overflow rule (R58, R60): code and flags. -/
def roundTo (f : Nat) (ovfNan : Bool) (key : Option Nat) (neg : Bool) (m : Nat) (e : Int) : Nat × Nat :=
  let c := quantMag f key m e
  if c ≤ fmtMax f then (withSign f neg c, 0)
  else if fmtHasInf f then (withSign f neg (infCode f), fOvf ||| fInf)
  else if ovfNan then (canonNan f, fNan ||| fOvf)
  else (withSign f neg (fmtMax f), fSat)

/-- The exact sum of two finite values, with the zero signs of R59. -/
def addFin (n1 : Bool) (m1 : Nat) (e1 : Int) (n2 : Bool) (m2 : Nat) (e2 : Int) : FVal :=
  let e := min e1 e2
  let a : Int := ((m1 <<< (e1 - e).toNat : Nat) : Int)
  let b : Int := ((m2 <<< (e2 - e).toNat : Nat) : Int)
  let s := (if n1 then -a else a) + (if n2 then -b else b)
  if s = 0 then .fin (n1 && n2 && decide (m1 = 0) && decide (m2 = 0)) 0 e
  else .fin (decide (s < 0)) s.natAbs e

/-! ### MX blocks (R76, R117) -/

/-- The exact values of an MX row; a scale of 0xFF makes every element NaN (R51). -/
def mxValues (f row : Nat) : List FVal :=
  let w := elemBits false f
  let s := rowScale w row
  (rowElems w row).map (fun c =>
    if s = 255 then FVal.nan
    else match decodeElem (elemFmt f) c with
      | .fin n m e => .fin n m (e + (s : Int) - 127)
      | v => v)

/-- The poisoned block: scale 0xFF, every element code 0 (R61). -/
def mxPoison (f : Nat) : Nat := mkMxRow (elemBits false f) 255 []

/-- floor(log2) of the largest magnitude of finite values; none where all are zero. -/
def maxLog2 (vals : List FVal) : Option Int :=
  vals.foldl (fun acc v => match v with
    | .fin _ m e =>
      if m = 0 then acc
      else
        let l := (Nat.log2 m : Int) + e
        match acc with
        | none => some l
        | some a => some (max a l)
    | _ => acc) none

/-- One element of a block whose shared exponent is `e`: code and flags (R76). -/
def mxElem (ef : Nat) (e : Int) (key : Option Nat) (v : FVal) : Nat × Nat :=
  match v with
  | .fin n m ex =>
    let c := quantMag ef key m (ex - e)
    if c ≤ fmtMax ef then (withSign ef n c, 0) else (withSign ef n (fmtMax ef), fSat)
  | _ => (0, 0)

/-- A block from its exact element values: R76 from the values s[i] onward. Returns the row and its flags. -/
def mxEncode (f : Nat) (keyOf : Nat → Option Nat) (vals : List FVal) : Nat × Nat :=
  if vals.any (fun v => fvIsNan v || fvIsInf v) then (mxPoison f, fNan)
  else
    let ef := elemFmt f
    let raw := match maxLog2 vals with
      | none => -127
      | some l => l - fmtEmax ef
    let ovf := if raw > 127 then fOvf else 0
    let e := if raw > 127 then 127 else if raw < -127 then -127 else raw
    let out := vals.mapIdx (fun i v => mxElem ef e (keyOf i) v)
    (mkMxRow (elemBits false f) (e + 127).toNat (out.map Prod.fst), out.foldl (fun a p => a ||| p.2) ovf)

end Sys2Proof.Machine
end

