-- ==== Sys2Proof/Machine/Arith.lean ====
section
/-! DEFINITION. Arith.lean: the combine functions of R54 to R67 and R76, the key bits of R79 and R80, and combine_list with its
application index (R34, R81). A row is one little-endian number, `none` where it is absent. -/

namespace Sys2Proof.Machine

/-! ### Key bits (R79, R80) -/

/-- mix64 of R80. -/
def mix64 (z : Word) : Word :=
  let z := (z ^^^ (z >>> 30)) * 0xBF58476D1CE4E5B9
  let z := (z ^^^ (z >>> 27)) * 0x94D049BB133111EB
  z ^^^ (z >>> 31)

/-- key_bits of R80: 32 bits. -/
def keyBits (seedHi seedLo c0 c1 : Word) : Nat :=
  let h := mix64 (c0 ^^^ seedLo)
  let h := mix64 (h ^^^ seedHi)
  let h := mix64 (h ^^^ c1)
  h.toNat >>> 32

/-- Counter word c0: step number and cord index. -/
def keyC0 (step : BitVec 48) (cord : Nat) : Word := BitVec.ofNat 64 (step.toNat * 65536 + cord % 65536)

/-- Counter word c1 (Table: Counter word c1). -/
def keyC1 (plan stage row elem node seg app : Nat) : Word :=
  putField 52 12 plan ||| putField 48 4 stage ||| putField 40 8 row ||| putField 35 5 elem |||
    putField 16 16 node ||| putField 12 4 seg ||| putField 6 6 app

/-! ### Pairwise functions on elements -/

/-- SUM of two floating-point elements (R57 to R60) with the origination mark of R372. -/
def sumFloat (f : Nat) (ovfNan : Bool) (key : Option Nat) (a b : Nat) : Nat × Nat :=
  match decodeElem f a, decodeElem f b with
  | .nan, _ => (canonNan f, fNan)
  | _, .nan => (canonNan f, fNan)
  | .inf s, .inf t => if s = t then (withSign f s (infCode f), fInf) else (canonNan f, fNan ||| fInvalid ||| fOrig)
  | .inf s, .fin _ _ _ => (withSign f s (infCode f), fInf)
  | .fin _ _ _, .inf t => (withSign f t (infCode f), fInf)
  | .fin n1 m1 e1, .fin n2 m2 e2 =>
    match addFin n1 m1 e1 n2 m2 e2 with
    | .fin n m e =>
      let r := roundTo f ovfNan key n m e
      (r.1, if r.2 % 4 = 0 then r.2 else r.2 ||| fOrig)
    | _ => (0, 0)

/-- INT32 SUM: modulo 2^32, OVF outside the range (R62). -/
def sumInt (a b : Nat) : Nat × Nat :=
  let x := (BitVec.ofNat 32 a).toInt + (BitVec.ofNat 32 b).toInt
  ((a + b) % 2 ^ 32, if x < -(2 ^ 31) ∨ 2 ^ 31 - 1 < x then fOvf else 0)

/-- The order of R63 as a number: −0 below +0, infinities at the ends, INT32 signed. -/
def orderKey (f code : Nat) : Int :=
  if f = 5 then (BitVec.ofNat 32 code).toInt
  else
    let mag := code % signBit f
    if signBit f ≤ code % (2 * signBit f) then -(mag : Int) - 1 else (mag : Int)

/-- A NaN in a format that has one. -/
def codeIsNan (f code : Nat) : Bool := isFloat f && fvIsNan (decodeElem f code)

/-- An infinity in a format that has one. -/
def codeIsInf (f code : Nat) : Bool := isFloat f && fvIsInf (decodeElem f code)

/-- MAX and MIN (R63). -/
def maxMin (isMax : Bool) (f a b : Nat) : Nat × Nat :=
  if codeIsNan f a || codeIsNan f b then (canonNan f, fNan)
  else
    let fl := if codeIsInf f a || codeIsInf f b then fInf else 0
    let ka := orderKey f a
    let kb := orderKey f b
    if isMax then (if ka < kb then b else a, fl) else (if kb < ka then b else a, fl)

/-- Bits of the value field of a MAXLOC pair (R65). -/
def pairValBits (f : Nat) : Nat := if f = 0 ∨ f = 5 then 32 else 16

/-- The value of a MAXLOC pair. -/
def pairVal (f p : Nat) : Nat := p % 2 ^ pairValBits f

/-- A MAXLOC pair with its value replaced. -/
def pairWith (f p v : Nat) : Nat := (p >>> pairValBits f <<< pairValBits f) + v

/-- MAXLOC (R64): NaN wins, then the greater value, then the left operand; a NaN value becomes canonical. -/
def maxLoc (f a b : Nat) : Nat × Nat :=
  let va := pairVal f a
  let vb := pairVal f b
  if codeIsNan f va then (pairWith f a (canonNan f), fNan)
  else if codeIsNan f vb then (pairWith f b (canonNan f), fNan)
  else
    let fl := if codeIsInf f va || codeIsInf f vb then fInf else 0
    (if orderKey f va < orderKey f vb then b else a, fl)

/-- The combine function of Table: Combine functions on one element pair. -/
def elemOp (o : OpSpec) (key : Option Nat) (a b : Nat) : Nat × Nat :=
  match o.fn with
  | 0 => if o.fmt = 5 then sumInt a b else sumFloat o.fmt o.ovfNan key a b
  | 1 => maxMin true o.fmt a b
  | 2 => maxMin false o.fmt a b
  | 3 => maxLoc o.fmt a b
  | 4 => (a &&& b, 0)
  | 5 => (a ||| b, 0)
  | _ => (a ^^^ b, 0)

/-- The VOTE lane of element `i` (Table: VOTE lanes). -/
def voteLane (i a b : Nat) : Nat :=
  if i < 8 then a &&& b else if i < 16 then a ||| b else if i < 24 then min a b else max a b

/-- The SEAL lane of element `i` (Table: SEAL lanes). -/
def sealLane (i a b : Nat) : Nat :=
  if i < 8 then a &&& b else if i < 16 then a ||| b else if i < 20 then min a b
  else if i < 24 then max a b else (a + b) % 2 ^ 32

/-- mx_sum of R76: the block and its flags. -/
def mxSum (f : Nat) (keyOf : Nat → Option Nat) (a b : Nat) : Nat × Nat :=
  let w := elemBits false f
  if rowScale w a = 255 ∨ rowScale w b = 255 then (mxPoison f, fNan)
  else
    let va := mxValues f a
    let vb := mxValues f b
    let inf := if (va ++ vb).any fvIsInf then fInf else 0
    let inv := if (List.zip va vb).any (fun p => match p with
      | (.inf s, .inf t) => s != t
      | _ => false) then fInvalid else 0
    let sums := List.zipWith (fun x y => match x, y with
      | .fin n1 m1 e1, .fin n2 m2 e2 => addFin n1 m1 e1 n2 m2 e2
      | _, _ => FVal.nan) va vb
    let r := mxEncode f keyOf sums
    (r.1, r.2 ||| inf ||| inv)

/-- op on two present rows (R54, R76, R107, R359): the row and its flags. -/
def opRows (o : OpSpec) (keyOf : Nat → Option Nat) (a b : Nat) : Nat × Nat :=
  match o.lanes with
  | .vote => (joinElems 32 (List.zipWith (fun i p => voteLane i p.1 p.2) (List.range 32)
      (List.zip (rowElems 32 a) (rowElems 32 b))), 0)
  | .seal => (joinElems 32 (List.zipWith (fun i p => sealLane i p.1 p.2) (List.range 32)
      (List.zip (rowElems 32 a) (rowElems 32 b))), 0)
  | .merge => (a, 0)
  | .none =>
    if isMx o.fmt then mxSum o.fmt keyOf a b
    else
      let w := elemBits (o.fn == 3) o.fmt
      let r := List.zipWith (fun i p => elemOp o (keyOf i) p.1 p.2) (List.range 32)
        (List.zip (rowElems w a) (rowElems w b))
      (joinElems w (r.map Prod.fst), r.foldl (fun acc p => acc ||| p.2) 0)

/-- op_row of R67: absent rows pass the other operand through with no flags. -/
def opRow (o : OpSpec) (keyOf : Nat → Option Nat) (l r : Option Nat) : Option Nat × Nat :=
  match l, r with
  | none, none => (none, 0)
  | none, some b => (some b, 0)
  | some a, none => (some a, 0)
  | some a, some b => let p := opRows o keyOf a b; (some p.1, p.2)

/-! ### combine_list (R34, R81) -/

/-- The largest power of two strictly below n, for n of 2 or more. -/
def splitPoint (n : Nat) : Nat := 2 ^ Nat.log2 (n - 1)

/-- combine_keyed of R81 over one row: value, flags raised by the applications, next application index. `fuel` is at least the
length of the list. -/
def combineRow (o : OpSpec) (keyOf : Nat → Nat → Option Nat) : Nat → List (Option Nat) → Nat → Option Nat × Nat × Nat
  | _, [], next => (none, 0, next)
  | _, [v], next => (v, 0, next)
  | 0, v :: _, next => (v, 0, next)
  | fuel + 1, v, next =>
    let p := splitPoint v.length
    let l := combineRow o keyOf fuel (v.take p) next
    let r := combineRow o keyOf fuel (v.drop p) l.2.2
    let x := opRow o (keyOf r.2.2) l.1 r.1
    (x.1, l.2.1 ||| r.2.1 ||| x.2, r.2.2 + 1)

/-- combine_list over the rows of children's cords (R34, R68, R74): the rows and the flags this node's applications raise. `keyOf`
takes row, application and element. -/
def combineCords (o : OpSpec) (keyOf : Nat → Nat → Nat → Option Nat) (nrows : Nat) (ops : List (List (Option Nat))) :
    List (Option Nat) × Nat :=
  let rs := (List.range nrows).map (fun r =>
    combineRow o (keyOf r) ops.length (ops.map (fun x => x[r]?.getD none)) 0)
  (rs.map Prod.fst, rs.foldl (fun a p => a ||| p.2.1) 0)

/-! ### What the leaf finds on reading (R73) -/

/-- NAN and INF of one present row in the format and function of its entry. -/
def leafRowFlags (fn f row : Nat) : Nat :=
  if fn = 4 ∨ fn = 5 ∨ fn = 6 then 0
  else if isMx f then
    let w := elemBits false f
    if rowScale w row = 255 then fNan
    else
      let vs := mxValues f row
      (if vs.any fvIsNan then fNan else 0) ||| (if vs.any fvIsInf then fInf else 0)
  else if isFloat f then
    let w := elemBits (fn == 3) f
    let vs := (rowElems w row).map (fun c => decodeElem f (if fn = 3 then pairVal f c else c))
    (if vs.any fvIsNan then fNan else 0) ||| (if vs.any fvIsInf then fInf else 0)
  else 0

/-- R65: the member index written into every MAXLOC pair of a row; the reserved bits of a 64-bit pair become 0. -/
def leafMaxloc (f idx row : Nat) : Nat :=
  let w := elemBits true f
  joinElems w ((rowElems w row).map (fun p => pairVal f p + (idx % 65536) <<< pairValBits f))

end Sys2Proof.Machine
end

