-- ==== Sys2Proof/Machine/Finish.lean ====
section
/-! DEFINITION. Finish.lean: the finishing stage (R113 to R123) and the identity rows of the root (R69, R70, R100, R107). -/

namespace Sys2Proof.Machine

/-! ### The finishing descriptor (Table: Finishing descriptor) -/

/-- SCALE_EN. -/
def fdScaleEn (d : Word × Word) : Bool := bitOf d.1 27
/-- CONVERT_EN. -/
def fdConvertEn (d : Word × Word) : Bool := bitOf d.1 26
/-- HIGH_EN. -/
def fdHighEn (d : Word × Word) : Bool := bitOf d.1 25
/-- CLAMP_EN. -/
def fdClampEn (d : Word × Word) : Bool := bitOf d.1 24
/-- PERM_EN. -/
def fdPermEn (d : Word × Word) : Bool := bitOf d.1 23
/-- SCALE, an FP32 pattern. -/
def fdScale (d : Word × Word) : Nat := fieldOf d.1 32 32
/-- OUT_FORMAT. -/
def fdOut (d : Word × Word) : Nat := fieldOf d.1 28 4
/-- PERM_TABLE. -/
def fdTable (d : Word × Word) : Nat := fieldOf d.1 0 16
/-- CLAMP_HI. -/
def fdHi (d : Word × Word) : Nat := fieldOf d.2 32 32
/-- CLAMP_LO. -/
def fdLo (d : Word × Word) : Nat := fieldOf d.2 0 32

/-- The output format of R112. -/
def outFormat (d : Word × Word) (f : Nat) : Nat := if fdConvertEn d || fdHighEn d then fdOut d else f

/-! ### The steps -/

/-- Multiply exactly by SCALE, signs by exclusive OR (R116). -/
def scaleVal (s : FVal) (v : FVal) : FVal :=
  match s, v with
  | .fin sn sm se, .fin n m e => .fin (sn != n) (m * sm) (e + se)
  | .fin sn _ _, .inf n => .inf (sn != n)
  | _, v => v

/-- The exact values of a data row (R116): floats, MX elements, or INT32 integers. -/
def dataValues (f row : Nat) : List FVal :=
  if isMx f then mxValues f row
  else if f = 5 then (rowElems 32 row).map (fun c =>
    let i := (BitVec.ofNat 32 c).toInt
    FVal.fin (decide (i < 0)) i.natAbs 0)
  else (rowElems (elemBits false f) row).map (decodeElem f)

/-- One element rounded to a plain target format (Table: Conversions), with the origination mark of R372. -/
def convElem (g : Nat) (ovfNan : Bool) (key : Option Nat) (v : FVal) : Nat × Nat :=
  match v with
  | .nan => (canonNan g, fNan)
  | .inf n => if fmtHasInf g then (withSign g n (infCode g), fInf) else (canonNan g, fNan ||| fOrig)
  | .fin n m e =>
    let r := roundTo g ovfNan key n m e
    (r.1, if r.2 % 4 = 0 then r.2 else r.2 ||| fOrig)

/-- Scale and conversion of one present row, one rounding (R116, R117): the row in format `g` and its flags.
An infinite element that poisons an MX row is an origination: only a combine is exempt (R372; log 7). -/
def scaleConvert (d : Word × Word) (f g : Nat) (ovfNan : Bool) (keyOf : Nat → Option Nat) (row : Nat) : Nat × Nat :=
  let vals := if fdScaleEn d then (dataValues f row).map (scaleVal (decodeElem 0 (fdScale d))) else dataValues f row
  if isMx g then
    let r := mxEncode g keyOf vals
    (r.1, if vals.any fvIsInf then r.2 ||| fOrig else r.2)
  else
    let r := vals.mapIdx (fun i v => convElem g ovfNan (keyOf i) v)
    (joinElems (elemBits false g) (r.map Prod.fst), r.foldl (fun a p => a ||| p.2) 0)

/-- High-half extraction (R119): bits [31:16] of FP32, NaN to 0x7FC0. -/
def highHalf (row : Nat) : Nat :=
  joinElems 16 ((rowElems 32 row).map (fun c => if codeIsNan 0 c then 0x7FC0 else c >>> 16))

/-- An FP32 limit in the output format, where it is exactly representable (R120). -/
def limitCode (g c : Nat) : Nat :=
  match decodeElem 0 c with
  | .nan => canonNan g
  | .inf n => withSign g n (infCode g)
  | .fin n m e => withSign g n (quantMag g none m e)

/-- Clamp of one row in format `g` (R120). -/
def clampRow (d : Word × Word) (g row : Nat) : Nat :=
  let lo := limitCode g (fdLo d)
  let hi := limitCode g (fdHi d)
  let w := elemBits false g
  joinElems w ((rowElems w row).map (fun c =>
    if codeIsNan g c then c
    else if orderKey g c < orderKey g lo then lo
    else if orderKey g hi < orderKey g c then hi
    else c))

/-- Permutation over a cord (R122, R123): `valid` is the valid length, elements are `w` bits wide; an MX block keeps its scale. -/
def permute (mx : Bool) (w : Nat) (table : List Nat) (valid : Nat) (rows : List (Option Nat)) : List (Option Nat) × Nat :=
  let flat := (rows.map (fun r => match r with
    | none => (List.replicate 32 (none : Option Nat))
    | some n => (rowElems w n).map some)).flatten.toArray
  let tab := table.toArray
  let src := fun j =>
    if valid ≤ j then (0, 0)
    else
      let p := (tab[j]?).getD 65536
      match (if p < valid then (flat[p]?).getD none else none) with
      | some v => (v, 0)
      | none => (0, fOob)
  let out := rows.mapIdx (fun r row => match row with
    | none => (none, 0)
    | some n =>
      let es := (List.range 32).map (fun i => src (32 * r + i))
      let body := joinElems w (es.map Prod.fst)
      (some (if mx then (rowScale w n <<< (32 * w)) + body else body), es.foldl (fun a p => a ||| p.2) 0))
  (out.map Prod.fst, out.foldl (fun a p => a ||| p.2) 0)

/-! ### Identity rows (R69, R70) -/

/-- Table: Identity values, one element; MAXLOC carries index 0xFFFF. -/
def identityElem (fn g : Nat) : Nat :=
  let lowest := if g = 5 then 0x80000000 else if g = 3 then 0xFE else withSign g true (infCode g)
  let highest := if g = 5 then 0x7FFFFFFF else if g = 3 then 0x7E else infCode g
  match fn with
  | 1 => lowest
  | 2 => highest
  | 3 => lowest + 0xFFFF <<< pairValBits g
  | 4 => 2 ^ elemBits false g - 1
  | _ => 0

/-- The identity row of a function in its landing format; an MX landing format has codes 0 and scale 0 (R69). -/
def identityRow (fn g : Nat) : Nat :=
  if isMx g then 0 else joinElems (elemBits (fn == 3) g) (List.replicate 32 (identityElem fn g))

/-- The lane identities of a VOTE row (Table: VOTE lanes). -/
def voteIdentity : Nat :=
  joinElems 32 ((List.range 32).map (fun i => if i < 8 ∨ (16 ≤ i ∧ i < 24) then 0xFFFFFFFF else 0))

/-- The row delivered where the root's output is absent, and whether EMPTY is raised (R69, R100, R107, R112). -/
def rootFill (kind fn g : Nat) : Nat × Bool :=
  if kind ≤ 2 then (identityRow fn g, true)
  else if kind = 3 then (0, true)
  else if kind = 6 then (voteIdentity, true)
  else (0, false)

/-- The five steps in the order of R114 over the rows of one root cord. `n` and `c` are the length and the cord's index for R122;
`keyOf` takes row and element (stage 6). Absent rows take no part. -/
def finishRows (d : Word × Word) (fn f : Nat) (ovfNan : Bool) (table : List Nat) (n c : Nat)
    (keyOf : Nat → Nat → Option Nat) (rows : List (Option Nat)) : List (Option Nat) × Nat :=
  let g1 := if fdConvertEn d then fdOut d else f
  let s1 := if fdScaleEn d || fdConvertEn d then
      rows.mapIdx (fun r row => match row with
        | none => (none, 0)
        | some x => let p := scaleConvert d f g1 ovfNan (keyOf r) x; (some p.1, p.2))
    else rows.map (fun r => (r, 0))
  let fl1 := s1.foldl (fun a p => a ||| p.2) 0
  let r2 := (s1.map Prod.fst).map (fun row => if fdHighEn d then row.map highHalf else row)
  let g := outFormat d f
  let r3 := r2.map (fun row => if fdClampEn d then row.map (clampRow d g) else row)
  let fr := fullRows (fn == 3) f
  let p := if fdPermEn d then
      permute (isMx g) (elemBits (fn == 3) g) table (min (32 * fr) (n - 32 * fr * c)) r3
    else (r3, 0)
  (p.1, fl1 ||| p.2)

end Sys2Proof.Machine
end

