-- ==== Sys2Proof/Machine/Operands.lean ====
section
/-! DEFINITION. Operands.lean: the fields of plan entries (R163 to R168), of leaf entries (R130, R136, R145), of cords (R216) and of
messages (R223, R224), and the rows of a cord. -/

namespace Sys2Proof.Machine

/-! ### Plan entries -/

/-- TYPE. -/
def eType (e : PlanEntry) : Nat := fieldOf e.w0 62 2
/-- PLAN_INDEX. -/
def eIdx (e : PlanEntry) : Nat := fieldOf e.w0 48 12
/-- KIND. -/
def eKind (e : PlanEntry) : Nat := fieldOf e.w0 44 4
/-- FORMAT. -/
def eFmt (e : PlanEntry) : Nat := fieldOf e.w0 40 4
/-- FUNCTION. -/
def eFn (e : PlanEntry) : Nat := fieldOf e.w0 37 3
/-- ROUND: keyed stochastic. -/
def eKeyed (e : PlanEntry) : Bool := bitOf e.w0 36
/-- E4M3_OVF: NAN. -/
def eOvfNan (e : PlanEntry) : Bool := bitOf e.w0 35
/-- GROUP. -/
def eGroup (e : PlanEntry) : Nat := fieldOf e.w0 24 8
/-- FINISH. -/
def eFinish (e : PlanEntry) : Nat := fieldOf e.w0 16 8
/-- PERIOD_M1 plus 1. -/
def ePeriod (e : PlanEntry) : Nat := fieldOf e.w0 8 8 + 1
/-- PHASE. -/
def ePhase (e : PlanEntry) : Nat := fieldOf e.w0 0 8
/-- LENGTH. -/
def eLen (e : PlanEntry) : Nat := fieldOf e.w1 32 32
/-- CORDS_M1 plus 1. -/
def eCordsField (e : PlanEntry) : Nat := fieldOf e.w1 16 16 + 1
/-- W2[63:48]: DEST_MEMBER, Q_M1, SRC_MEMBER, CAP_M1, TWIN_MASK by kind (R164). -/
def eArg (e : PlanEntry) : Nat := fieldOf e.w2 48 16
/-- BCAST SRC_TILE. -/
def eSrcTile (e : PlanEntry) : Nat := fieldOf e.w2 38 10
/-- GATHER LEN_COUNTER. -/
def eLenCounter (e : PlanEntry) : Nat := fieldOf e.w2 42 6
/-- PASS TGT_MEMBER. -/
def eTgtMember (e : PlanEntry) : Nat := fieldOf e.w2 32 16
/-- EST_START. -/
def eEst (e : PlanEntry) : Nat := fieldOf e.w3 32 32
/-- PREHEAT_LEAD. -/
def eLead (e : PlanEntry) : Nat := fieldOf e.w3 16 16
/-- BUF_WINDOW. -/
def eWindow (e : PlanEntry) : Nat := fieldOf e.w4 48 16
/-- AT of a PREHEAT entry, signed (R168). -/
def ePreAt (e : PlanEntry) : Int := (BitVec.ofNat 32 (fieldOf e.w2 32 32)).toInt
/-- HOLD of a PREHEAT entry. -/
def ePreHold (e : PlanEntry) : Nat := fieldOf e.w2 16 16
/-- INSTANCE of a PREHEAT entry. -/
def ePreInst (e : PlanEntry) : Nat := fieldOf e.w3 40 24
/-- DOMAIN_MASK of a PREHEAT entry. -/
def ePreMask (e : PlanEntry) : Word := e.w1

/-- The entry's function is MAXLOC. -/
def eMl (e : PlanEntry) : Bool := eFn e == 3

/-- Active in a step (R167); only OPERATION and PREHEAT entries are ever active (R170). -/
def eActive (e : PlanEntry) (step : Nat) : Bool :=
  decide (eType e ≤ 1) && decide (step % ePeriod e = ePhase e)

/-- An active OPERATION entry. -/
def eOpActive (e : PlanEntry) (step : Nat) : Bool := decide (eType e = 0) && eActive e step

/-- F of the entry (R52, R91). -/
def eF (e : PlanEntry) : Nat := fullRows (eMl e) (eFmt e)

/-- Rows of the operation's vector, ⌈n ÷ 32⌉ (R91). -/
def eRows (e : PlanEntry) : Nat := ceilDiv (eLen e) 32

/-- K of a GATHER (R101). -/
def eCap (e : PlanEntry) : Nat := eArg e + 1

/-- Data cords of a GATHER slot, or cords per position of a REDUCE_SCATTER (R98, R101). -/
def eQ (e : PlanEntry) : Nat :=
  if eKind e = 4 then ceilDiv (eCap e) (eF e) else if eKind e = 2 then eArg e + 1 else 0

/-- C for a position count P (Table: Length and cords by kind). -/
def cordsFor (e : PlanEntry) (p : Nat) : Nat :=
  match eKind e with
  | 2 => eQ e * p
  | 4 => p * eQ e + ceilDiv p 128 + 1
  | 5 => 1
  | 6 => 1
  | _ => ceilDiv (eRows e) (eF e)

/-- The row count of cord `c` for a position count P (R91, R52, R101, R103). -/
def rowsOfCord (e : PlanEntry) (p c : Nat) : Nat :=
  match eKind e with
  | 4 =>
    let d := p * eQ e
    if c < d then min (eF e) (eCap e - (c % eQ e) * eF e)
    else if c < d + ceilDiv p 128 then min 128 (p - (c - d) * 128)
    else 1
  | 5 => 0
  | 6 => 1
  | _ => min (eF e) (eRows e - c * eF e)

/-- The format a cord of the entry carries: GATHER count and total cords are INT32 (R103). -/
def fmtOfCord (e : PlanEntry) (p c : Nat) : Nat := if eKind e = 4 ∧ p * eQ e ≤ c then 5 else eFmt e

/-- What a combine node applies to cord `c` of the entry (R54, R104, R107). -/
def opSpecOf (e : PlanEntry) (p c : Nat) : OpSpec :=
  let base : OpSpec := { lanes := .none, fn := eFn e, fmt := eFmt e, keyed := eKeyed e, ovfNan := eOvfNan e }
  match eKind e with
  | 6 => { base with lanes := .vote }
  | 4 =>
    if c < p * eQ e + ceilDiv p 128 then { base with lanes := .merge }
    else { base with fn := 0, fmt := 5, keyed := false }
  | _ => base

/-! ### Leaf entries -/

/-- THRESHOLD. -/
def trThreshold (w0 : Word) : Nat := fieldOf w0 32 32
/-- STRIDE. -/
def trStride (w0 : Word) : Nat := fieldOf w0 16 16
/-- RING. -/
def trRing (w0 : Word) : Nat := fieldOf w0 12 4
/-- PLAN_INDEX of a trigger entry. -/
def trPlan (w0 : Word) : Nat := fieldOf w0 0 12
/-- FIRST_CORD. -/
def trFirst (w1 : Word) : Nat := fieldOf w1 48 16
/-- CORD_COUNT_M1 plus 1. -/
def trCount (w1 : Word) : Nat := fieldOf w1 32 16 + 1
/-- CORDS_PER_FIRE. -/
def trPerFire (w1 : Word) : Nat := fieldOf w1 24 8
/-- COUNTER. -/
def trCounter (w1 : Word) : Nat := fieldOf w1 18 6
/-- RELEASE. -/
def trRelease (w1 : Word) : Nat := fieldOf w1 12 6
/-- RELEASE_EN. -/
def trReleaseEn (w1 : Word) : Bool := bitOf w1 11
/-- ARMED. -/
def trArmed (w1 : Word) : Bool := bitOf w1 10

/-- FORMAT of a staging ring entry. -/
def srFmt (w : Word) : Nat := fieldOf w 60 4
/-- Slots. -/
def srSlots (w : Word) : Nat := fieldOf w 46 8 + 1
/-- MASK_LINE. -/
def srMaskLine (w : Word) : Bool := bitOf w 45
/-- BASE. -/
def srBase (w : Word) : Nat := fieldOf w 0 22

/-- PLAN_INDEX of a landing entry. -/
def lePlan (w0 : Word) : Nat := fieldOf w0 52 12
/-- VALID. -/
def leValid (w0 : Word) : Bool := bitOf w0 51
/-- BANK_MODE. -/
def leBankMode (w0 : Word) : Nat := fieldOf w0 49 2
/-- PERMIT_EN. -/
def lePermitEn (w0 : Word) : Bool := bitOf w0 48
/-- PERMIT_COUNTER. -/
def lePermitCounter (w0 : Word) : Nat := fieldOf w0 42 6
/-- COMPLETION. -/
def leCompletion (w0 : Word) : Nat := fieldOf w0 36 6
/-- BASE. -/
def leBase (w0 : Word) : Nat := fieldOf w0 0 22
/-- PERMIT_VALUE. -/
def lePermitValue (w1 : Word) : Nat := fieldOf w1 32 32
/-- BANK_OFFSET. -/
def leBankOffset (w1 : Word) : Nat := fieldOf w1 0 22

/-! ### Cords (R216) -/

/-- PROTOCOL. -/
def cProto (c : Cord) : Nat := fieldOf c.w0 56 8
/-- FORMAT. -/
def cFmt (c : Cord) : Nat := fieldOf c.w0 52 4
/-- KIND. -/
def cKind (c : Cord) : Nat := fieldOf c.w0 48 4
/-- PLAN_INDEX. -/
def cPlan (c : Cord) : Nat := fieldOf c.w0 36 12
/-- LEVEL. -/
def cLevel (c : Cord) : Nat := fieldOf c.w0 32 4
/-- EPOCH. -/
def cEpoch (c : Cord) : Nat := fieldOf c.w0 16 16
/-- SOURCE_MEMBER. -/
def cSource (c : Cord) : Nat := fieldOf c.w0 0 16
/-- STEP. -/
def cStep (c : Cord) : Nat := fieldOf c.w1 16 48
/-- CORD_INDEX. -/
def cIdx (c : Cord) : Nat := fieldOf c.w1 0 16
/-- TARGET_MEMBER. -/
def cTarget (c : Cord) : Nat := fieldOf c.w2 48 16
/-- SOURCE_TILE. -/
def cTile (c : Cord) : Nat := fieldOf c.w2 38 10
/-- ROW_COUNT. -/
def cRows (c : Cord) : Nat := fieldOf c.w2 16 16
/-- FLAGS. -/
def cFlags (c : Cord) : Nat := fieldOf c.w2 0 16
/-- The presence mask of W3-W6 as one number, row r at bit r (R53). -/
def cMask (c : Cord) : Nat :=
  c.w3.toNat + c.w4.toNat * 2 ^ 64 + c.w5.toNat * 2 ^ 128 + c.w6.toNat * 2 ^ 192

/-- W0 from its fields. -/
def mkW0 (fmt kind plan level epoch source : Nat) : Word :=
  putField 56 8 3 ||| putField 52 4 fmt ||| putField 48 4 kind ||| putField 36 12 plan ||| putField 32 4 level |||
    putField 16 16 epoch ||| putField 0 16 source

/-- W1 from step number and cord index. -/
def mkW1 (step idx : Nat) : Word := putField 16 48 step ||| putField 0 16 idx

/-- W2 from its fields. -/
def mkW2 (target tile rows flags : Nat) : Word :=
  putField 48 16 target ||| putField 38 10 tile ||| putField 16 16 rows ||| putField 0 16 flags

/-- The cord with a new presence mask. -/
def setMask (c : Cord) (m : Nat) : Cord :=
  { c with w3 := BitVec.ofNat 64 m, w4 := BitVec.ofNat 64 (m >>> 64), w5 := BitVec.ofNat 64 (m >>> 128),
           w6 := BitVec.ofNat 64 (m >>> 192) }

/-- The 64 header bytes. -/
def headerBytes (c : Cord) : List Byte :=
  wordBytes c.w0 ++ wordBytes c.w1 ++ wordBytes c.w2 ++ wordBytes c.w3 ++ wordBytes c.w4 ++ wordBytes c.w5 ++
    wordBytes c.w6 ++ wordBytes c.w7

/-- Header and payload bytes in order (R222). -/
def cordBytes (c : Cord) : List Byte := headerBytes c ++ c.payload

/-- A cord read back from its bytes. -/
def cordOfBytes (bs : List Byte) : Cord :=
  { w0 := wordAt bs 0, w1 := wordAt bs 8, w2 := wordAt bs 16, w3 := wordAt bs 24, w4 := wordAt bs 32,
    w5 := wordAt bs 40, w6 := wordAt bs 48, w7 := wordAt bs 56, payload := bs.drop 64 }

/-- The CRC field of W7 (R218). -/
def cCrc (c : Cord) : Nat := fieldOf c.w7 32 32

/-- The CRC of R218: header with W7[63:32] at 0, then the payload. -/
def cordCrc (c : Cord) : BitVec 32 := crc32c (cordBytes { c with w7 := setField c.w7 32 32 0 })

/-- The cord with its CRC recomputed for a HALL_SEQ (R218). -/
def sealCrc (c : Cord) (hallSeq : Nat) : Cord :=
  let c1 := { c with w7 := putField 0 32 hallSeq }
  { c1 with w7 := putField 0 32 hallSeq ||| putField 32 32 (cordCrc c1).toNat }

/-- The CRC of the whole cord is right (R219). -/
def crcOk (c : Cord) : Bool := decide ((cordCrc c).toNat = cCrc c)

/-- TARGET_MEMBER rewritten for a hop, CRC recomputed (R217, R218). -/
def retarget (c : Cord) (target : Nat) : Cord := sealCrc { c with w2 := setField c.w2 48 16 target } 0

/-- A received cord without what its sender may not have set (R7): W2[37:32], FLAGS[15:10] (R74), and the mask words that a protocol 2 cord
does not use (R247). Its CRC is made anew where one of them was set. -/
def cleanse (p2 : Bool) (c : Cord) : Cord :=
  let d := { c with w2 := c.w2 &&& 0xFFFFFFC0FFFF03FF#64 }
  let e := if p2 && decide (cKind c ≠ 9 ∧ cKind c ≠ 5 ∧ cKind c ≠ 6) then { d with w5 := 0, w6 := 0 } else d
  if e = c then c else sealCrc e 0

/-- OR flags into a cord; the CRC is recomputed. -/
def orFlags (c : Cord) (f : Nat) : Cord := sealCrc { c with w2 := setField c.w2 0 16 (cFlags c ||| f) } (fieldOf c.w7 0 32)

/-- d(c) of R361: CRC-32C over the digest view. -/
def cordDigest (c : Cord) : BitVec 32 :=
  crc32c (cordBytes { c with w0 := setField c.w0 16 16 0,
                             w2 := setField (setField c.w2 48 16 0) 8 2 0, w7 := 0 })

/-- Row bytes of a cord in a landed or carried format. -/
def rowsOfPayload (rb n mask : Nat) (payload : List Byte) : List (Option Nat) :=
  (List.range n).map (fun r => if mask.testBit r then some (ofLe (slice payload (r * rb) rb)) else none)

/-- The presence mask of rows. -/
def maskOfRows (rows : List (Option Nat)) : Nat :=
  rows.foldr (fun r acc => 2 * acc + (if r.isSome then 1 else 0)) 0

/-- The payload of rows, absent ones filled. -/
def payloadOfRows (rb fill : Nat) (rows : List (Option Nat)) : List Byte :=
  (rows.map (fun r => leBytes rb (r.getD fill))).flatten

/-! ### Messages (R223, R224) -/

/-- The 64 bytes of a message. -/
def msgBytes (m : Msg) : List Byte :=
  wordBytes m.m0 ++ wordBytes m.m1 ++ wordBytes m.m2 ++ wordBytes m.m3 ++ wordBytes m.m4 ++ wordBytes m.m5 ++
    wordBytes m.m6 ++ wordBytes m.m7

/-- A message read back from bytes. -/
def msgOfBytes (bs : List Byte) : Msg :=
  { m0 := wordAt bs 0, m1 := wordAt bs 8, m2 := wordAt bs 16, m3 := wordAt bs 24, m4 := wordAt bs 32,
    m5 := wordAt bs 40, m6 := wordAt bs 48, m7 := wordAt bs 56 }

/-- A message of zeros. -/
def msgZero : Msg := { m0 := 0, m1 := 0, m2 := 0, m3 := 0, m4 := 0, m5 := 0, m6 := 0, m7 := 0 }

/-- Type of a message. -/
def mType (m : Msg) : Nat := fieldOf m.m0 56 8

end Sys2Proof.Machine
end

