-- ==== Sys2Proof/Machine/Tree.lean ====
section
/-! DEFINITION. Tree.lean: members, positions, nodes, children and placements of a group (R26 to R43, R89), and who feeds and lands what
(R90, R96 to R112). -/

namespace Sys2Proof.Machine

/-! ### Coordinates (R30, R37, R79) -/

/-- Low bits cleared in the coordinate of a node at a level. -/
def levelShift (l : Nat) : Nat := if l = 0 then 0 else if l = 1 then 3 else if l = 2 then 6 else if l = 3 then 10 else 16

/-- The coordinate of the node at level `l` that holds die `d`. -/
def coordAt (l d : Nat) : Nat := d / 2 ^ levelShift l * 2 ^ levelShift l

/-- Distinct elements of a list whose equal elements are adjacent. -/
def dedupAdj : List Nat → List Nat
  | [] => []
  | [a] => [a]
  | a :: b :: l => if a = b then dedupAdj (b :: l) else a :: dedupAdj (b :: l)

/-- The logical die indices of a group's members. -/
def memberDies (g : GroupDef) : List Nat := g.members.map Prod.fst

/-- The lowest level whose single node contains every member (R30). -/
def topOf (dies : List Nat) : Nat :=
  match dies with
  | [] => 0
  | [_] => 0
  | d :: ds =>
    if ds.all (fun x => coordAt 1 x == coordAt 1 d) then 1
    else if ds.all (fun x => coordAt 2 x == coordAt 2 d) then 2
    else if ds.all (fun x => coordAt 3 x == coordAt 3 d) then 3
    else 4

/-- The coordinates of a group's nodes at a level, ascending. -/
def nodesAt (g : GroupDef) (l : Nat) : List Nat := dedupAdj ((memberDies g).map (coordAt l))

/-- The children of the node at level `l` (1 or more): coordinates at level l - 1, in order (R37). -/
def childrenOf (g : GroupDef) (l coord : Nat) : List Nat :=
  (nodesAt g (l - 1)).filter (fun c => coordAt l c == coord)

/-- The coordinate of the root. -/
def rootCoord (g : GroupDef) : Nat := coordAt g.topLevel ((memberDies g).headD 0)

/-- The group with a number. -/
def groupOf (gs : List GroupDef) (n : Nat) : Option GroupDef := gs.find? (fun g => g.num == n)

/-- The working placement list of a node (R42, R43). -/
def placeOf (ps : List PlaceRec) (g l coord : Nat) : List Nat :=
  match ps.find? (fun p => p.group == g && p.level == l && p.coord == coord) with
  | some p => p.entries
  | none => []

/-- The entry that computes cord `c` of a node: entry c mod k (R43). -/
def siteOf (ps : List PlaceRec) (g l coord c : Nat) : Option Nat :=
  let es := placeOf ps g l coord
  if es.isEmpty then none else es[c % es.length]?

/-! ### Tiles and positions (R23 to R29, R89) -/

/-- Segment of a physical tile (R23). -/
def segOf (t : Nat) : Nat := t / 36

/-- The spares of one segment: its highest tiles that are not disabled, up to the count (R24). -/
def segSpares (disabled : BitVec 576) (s count : Nat) : List Nat :=
  let live := ((List.range 36).map (fun p => 36 * s + p)).filter (fun t => !disabled.getLsbD t)
  live.drop (live.length - count)

/-- The tiles kindled as spares (R24). -/
def spareTiles (disabled : BitVec 576) (counts : List Nat) : List Nat :=
  ((List.range 16).map (fun s => segSpares disabled s ((counts[s]?).getD 0))).flatten

/-- The logical tiles, ascending physical number (R26). -/
def logicalTiles (disabled : BitVec 576) (spares : List Nat) : List Nat :=
  (List.range 576).filter (fun t => !disabled.getLsbD t && !spares.contains t)

/-- A set of tiles as a bit mask. -/
def tileMask (l : List Nat) : BitVec 576 := BitVec.ofNat 576 (l.foldl (fun a t => a + 2 ^ t) 0)

/-- The logical tile indices that a group selects on a die, ascending (R29). `logical` lists the physical tile of each index. -/
def selectedTiles (g : GroupDef) (logical : List Nat) : List Nat :=
  (List.range logical.length).filter (fun i => match logical[i]? with
    | some t => g.tileSelect.getLsbD t
    | none => false)

/-- P, the group's position count: the sum of TILE_COUNT (R89, R327). -/
def posCount (g : GroupDef) : Nat := g.members.foldl (fun a m => a + m.2) 0

/-- The member index of a die. -/
def memberIdx (g : GroupDef) (die : Nat) : Option Nat := indexIn die (memberDies g)

/-- The position index of the first position of member `m`. -/
def firstPos (g : GroupDef) (m : Nat) : Nat := (g.members.take m).foldl (fun a x => a + x.2) 0

/-- The position index of a logical tile of a die (R89). -/
def posIndex (g : GroupDef) (die : Nat) (logical : List Nat) (tile : Nat) : Option Nat :=
  match memberIdx g die, indexIn tile (selectedTiles g logical) with
  | some m, some k => some (firstPos g m + k)
  | _, _ => none

/-- The member of a position and its ordinal there. -/
def memberOfPos : List (Nat × Nat) → Nat → Nat → Option (Nat × Nat)
  | [], _, _ => none
  | (d, n) :: l, k, m => if k < n then some (d, k) else memberOfPos l (k - n) (m + 1)

/-- The member index that R65 writes and FIRST_NF-like fields name: the die's, or in an L0 group the tile's (R30). -/
def maxlocIndex (g : GroupDef) (die : Nat) (logical : List Nat) (tile : Nat) : Nat :=
  if g.topLevel = 0 then (indexIn tile (selectedTiles g logical)).getD 0 else (memberIdx g die).getD 0

/-! ### Who feeds and who lands (R90, R96 to R112) -/

/-- The die that a member index names; in a group whose top level is L0 there is one die (R30). -/
def dieOfMember (g : GroupDef) (m : Nat) : Option Nat :=
  if g.topLevel = 0 then (memberDies g).head? else (memberDies g)[m]?

/-- A logical tile of a member die feeds the entry. `arg` and `tgt` are the member arguments in force (R398). DESIGN CHOICE, UNSAFE (log 96): in a
group of top level L0, where SRC_MEMBER names a tile (R30), a BCAST takes SRC_TILE. -/
def tileFeeds (e : PlanEntry) (arg : Nat) (g : GroupDef) (die : Nat) (logical : List Nat) (tile : Nat) : Bool :=
  (selectedTiles g logical).contains tile && (memberIdx g die).isSome &&
    match eKind e with
    | 3 => dieOfMember g arg == some die && tile == eSrcTile e
    | 7 => dieOfMember g arg == some die
    | k => decide (k ≤ 8)

/-- The logical tile indices that the source member of a PASS entry feeds, as a die knows them (R109): its own selected ones where it is the
source; of another die the lowest of its own selected ones, as many as the source's TILE_COUNT, and beyond its logical tiles where those are
too few. DEDUCED, UNSAFE (log 66). -/
def passIndices (g : GroupDef) (arg die : Nat) (logical : List Nat) : List Nat :=
  let sel := selectedTiles g logical
  let n := ((g.members[arg]?).map Prod.snd).getD 0
  if dieOfMember g arg = some die then sel
  else sel.take n ++ (List.range (n - sel.length)).map (logical.length + ·)

/-- A logical tile has landing content for the entry (R112). -/
def tileLands (e : PlanEntry) (arg tgt : Nat) (g : GroupDef) (die : Nat) (logical : List Nat) (tile : Nat) : Bool :=
  match eKind e with
  | 1 =>
    (selectedTiles g logical).contains tile &&
      (if g.topLevel = 0 then memberDies g == [die] && (selectedTiles g logical)[arg]? == some tile
       else dieOfMember g arg == some die)
  | 7 => dieOfMember g tgt == some die && (passIndices g arg die logical).contains tile && decide (tile < logical.length)
  | k => (selectedTiles g logical).contains tile && (memberIdx g die).isSome && decide (k ≤ 8)

/-- The cords a position lands: first index and count (R147); P is the position count, k the position. -/
def landRange (e : PlanEntry) (p k : Nat) : Nat × Nat :=
  match eKind e with
  | 2 => (k * eQ e, eQ e)
  | 5 => (0, 0)
  | _ => (0, cordsFor e p)

/-- A member die lands cord `c` in at least one of its positions (R94, R96 to R112). -/
def dieLandsCord (e : PlanEntry) (arg : Nat) (g : GroupDef) (die c : Nat) : Bool :=
  match memberIdx g die with
  | none => false
  | some m =>
    match eKind e with
    | 1 => g.topLevel == 0 || m == arg
    | 2 =>
      let f := firstPos g m
      let n := ((g.members[m]?).map Prod.snd).getD 0
      decide (f ≤ c / eQ e) && decide (c / eQ e < f + n)
    | k => decide (k ≤ 6)

/-- The number of member dies that land cord `c`: m of R362. -/
def landersOf (e : PlanEntry) (arg : Nat) (g : GroupDef) (c : Nat) : Nat :=
  if g.topLevel = 0 then 1 else ((memberDies g).filter (fun d => dieLandsCord e arg g d c)).length

/-- A child of a node on the descending path holds a landing of cord `c`: `coord` at level `l`. -/
def childLands (e : PlanEntry) (arg : Nat) (g : GroupDef) (l coord c : Nat) : Bool :=
  (memberDies g).any (fun d => coordAt l d == coord && dieLandsCord e arg g d c)

/-- A member die feeds cord `c` of the entry in at least one position: a BCAST, a GATHER slot and a GATHER count cord come from
chosen positions only (R99, R101, R103). -/
def dieFeedsCord (e : PlanEntry) (arg : Nat) (g : GroupDef) (die c : Nat) : Bool :=
  match memberIdx g die with
  | none => false
  | some m =>
    match eKind e with
    | 3 => dieOfMember g arg == some die
    | 4 =>
      let f := firstPos g m
      let n := ((g.members[m]?).map Prod.snd).getD 0
      let d := posCount g * eQ e
      if c < d then decide (f ≤ c / eQ e) && decide (c / eQ e < f + n)
      else if c < d + ceilDiv (posCount g) 128 then
        decide (f < (c - d) * 128 + 128) && decide ((c - d) * 128 < f + n)
      else true
    | k => decide (k ≤ 6)

/-- A child of a node at level l - 1 carries cord `c` upward. -/
def childFeeds (e : PlanEntry) (arg : Nat) (g : GroupDef) (l coord c : Nat) : Bool :=
  (memberDies g).any (fun d => coordAt l d == coord && dieFeedsCord e arg g d c)

/-- The children of a node that carry the entry at all (R192); a GATHER's children all do. -/
def carryingChildren (e : PlanEntry) (arg : Nat) (g : GroupDef) (l coord : Nat) : List Nat :=
  (childrenOf g l coord).filter (fun c => (memberDies g).any (fun d => coordAt (l - 1) d == c &&
    (if eKind e = 3 then dieOfMember g arg == some d else decide (eKind e ≤ 6))))

end Sys2Proof.Machine
end

