-- ==== Sys2Proof/Machine/Ops.lean ====
section
/-! DEFINITION. Ops.lean: the shared operations: outcomes, counters, the event log, domains, the plan and groups in force, on-die
transport, link sets and messages, unclean reasons and the seal row. -/

namespace Sys2Proof.Machine

/-- The outcome of a command: the state it makes, with the queue and the integration parameters as they were. -/
def done (s t : State) : Host.Outcome State Fault Refusal :=
  .next { t with params := s.params, pending := s.pending }

/-- `f s` where `b` holds, `s` otherwise. -/
def onlyIf (b : Bool) (s : State) (f : State → State) : State := if b then f s else s

/-- `f x s` for the value of an option, `s` for none. -/
def withSome {α : Type} (o : Option α) (s : State) (f : α → State → State) : State :=
  match o with
  | some a => f a s
  | none => s

/-- Apply `f` to the elements of a list in order. -/
def forEach {α : Type} (l : List α) (s : State) (f : α → State → State) : State := l.foldl (fun t a => f a t) s

/-! ### Counters (R417, R435) -/

/-- The largest value of a 48-bit counter. -/
def ctrMax : Nat := 0xFFFFFFFFFFFF

/-- Add `k` to the counter at a register offset; it saturates. -/
def ctrAdd (off k : Nat) (s : State) : State :=
  { s with ctr := smMod 0 s.ctr off (fun v => min (v + k) ctrMax) }

/-- The counters that CLEAR_COUNTERS and kindling leave: CE_WORDS, UE_WORDS and BUFFERS_RETIRED of the eight banks (R417). -/
def ctrKept (off : Nat) : Bool :=
  (List.range 8).any (fun b => off == 0x30400 + 0x40 * b || off == 0x30408 + 0x40 * b || off == 0x30418 + 0x40 * b)

/-- Clear every counter but the kept ones. -/
def ctrClear (s : State) : State := { s with ctr := s.ctr.filter (fun p => ctrKept p.1) }

/-- Window base of a link unit: ports 0-17, modules 18-23 (R428). -/
def linkBase (k : Nat) : Nat := if k < 18 then 0x10000 + 0x400 * k else 0x20000 + 0x400 * (k - 18)

/-- Add to a counter of a link's window. -/
def linkCtr (k off n : Nat) (s : State) : State := ctrAdd (linkBase k + off) n s

/-- Add to a counter of a segment (R442). -/
def segCtr (seg off n : Nat) (s : State) : State := ctrAdd (0x460000 + 0x40 * seg + off) n s

/-! ### Domains (R337 to R340) -/

/-- A domain. -/
def dom (s : State) (d : Nat) : Dom := smGet Dom.init s.power.doms d

/-- A segment domain of a hearth-only instance is not implemented (R337). -/
def implemented (s : State) (d : Nat) : Bool := !(s.params.hearthOnly && decide (1 ≤ d) && decide (d ≤ 16))

/-- The state of a domain. -/
def domSt (s : State) (d : Nat) : DState := if implemented s d then (dom s d).st else .off

/-- The domain is WARM. -/
def warm (s : State) (d : Nat) : Bool := domSt s d == .warm

/-- Change a domain. -/
def setDom (d : Nat) (f : Dom → Dom) (s : State) : State :=
  { s with power := { s.power with doms := smMod Dom.init s.power.doms d f } }

/-- The domains D1 to D61. -/
def blockDoms : List Nat := (List.range 61).map (· + 1)

/-- The half of a fast-clocked domain (Table: Power domains); D59 counts as west here. -/
def eastDom (d : Nat) : Bool :=
  (decide (9 ≤ d) && decide (d ≤ 16)) || (decide (21 ≤ d) && decide (d ≤ 24)) || (decide (29 ≤ d) && decide (d ≤ 32)) ||
    (decide (42 ≤ d) && decide (d ≤ 50)) || (decide (54 ≤ d) && decide (d ≤ 56)) || decide (d = 61)

/-- The clocking domain whose clock a domain needs; none for D0, D60 to D63. -/
def clockDom (d : Nat) : Option Nat :=
  if d = 0 ∨ 60 ≤ d then none else if eastDom d then some 61 else some 60

/-- A domain leaves WARM: isolated, its clock stopped, KX_PD_RET set to bank it or cleared to turn it off, KX_PD_REQ lowered (R341). A
clocking domain's PLL stops; the rings close into west loops with the east one (R271). One that is WAKING leaves when its grant has come:
KX4 keeps the request up until then. -/
def leaveDom (off : Bool) (d : Nat) (s : State) : State :=
  if !implemented s d then s
  else if domSt s d == .waking && !(dom s d).gnt then setDom d (fun y => { y with leave := some off, wanted := false }) s
  else
    let st := if off then DState.off else DState.banked
    let s1 := setDom d (fun y => { y with st := st, req := false, ret := !off, wanted := false, leave := none }) s
    if d = 60 then { s1 with power := { s1.power with pllW := false } }
    else if d = 61 then { s1 with power := { s1.power with pllE := false, eastClosed := true } }
    else s1

/-- The domains of a half whose clocking domain is lost are WARM no more: their clock has stopped, and they are banked (R338). -/
def stopHalf (c : Nat) (s : State) : State :=
  forEach (blockDoms.filter (fun d => clockDom d == some c && warm s d)) s (leaveDom false)

/-- The fast clock of a half runs: its clocking domain is WARM, and the east clock is not stopped (R338, R356). -/
def clockRuns (s : State) (east : Bool) : Bool :=
  if east then warm s 61 && !s.power.eastStopped else warm s 60

/-- BLOCK_STATE of R340: 0 EMBER, 1 BANKED, 2 WARM, 3 BURNING. DESIGN CHOICE, UNSAFE (log 98): where no row of
the table holds, a mix of OFF and BANKED domains alone, the state is WARM. -/
def blockState (s : State) : Nat :=
  if blockDoms.all (fun d => domSt s d == .off) then 0
  else if blockDoms.all (fun d => !implemented s d || domSt s d == .banked) then 1
  else match s.step.state with
    | .opened => 3
    | .done => 3
    | _ => 2

/-- The block is banked (R340, R351). -/
def isBanked (s : State) : Bool := blockState s == 1

/-! ### Unit codes (Table: Unit codes) -/

/-- Code of a link unit. -/
def unitLink (k : Nat) : Nat := if k < 18 then k else 0x20 + (k - 18)
/-- Code of a kiln unit. -/
def unitKiln (k : Nat) : Nat := 0x30 + k
/-- Code of a bank. -/
def unitBank (b : Nat) : Nat := 0x38 + b
/-- Code of a segment. -/
def unitSeg (i : Nat) : Nat := 0x40 + i
/-- The plan engine. -/
def unitPE : Nat := 0x50
/-- The finishing stage. -/
def unitFS : Nat := 0x51
/-- The seam bridge. -/
def unitSB : Nat := 0x52
/-- The ember domain and power sequencer. -/
def unitEmber : Nat := 0x53
/-- SPI controller and kindling. -/
def unitKindle : Nat := 0x54
/-- The block as a whole. -/
def unitBlock : Nat := 0xFF

/-- The half of a unit with a fast clock; none for an ember unit. -/
def unitHalf (u : Nat) : Option Bool :=
  if u ≤ 8 then some false else if u ≤ 0x11 then some true
  else if 0x20 ≤ u ∧ u ≤ 0x22 then some false else if 0x23 ≤ u ∧ u ≤ 0x25 then some true
  else if 0x30 ≤ u ∧ u ≤ 0x33 then some false else if 0x34 ≤ u ∧ u ≤ 0x37 then some true
  else if 0x38 ≤ u ∧ u ≤ 0x3B then some false else if 0x3C ≤ u ∧ u ≤ 0x3F then some true
  else if 0x40 ≤ u ∧ u ≤ 0x47 then some false else if 0x48 ≤ u ∧ u ≤ 0x4F then some true
  else if 0x50 ≤ u ∧ u ≤ 0x52 then some false else none

/-- The domain of a link unit. -/
def domLink (k : Nat) : Nat := if k < 18 then 33 + k else 51 + (k - 18)

/-! ### Timestamps (R275, R276) -/

/-- The sub-tick phase of a half whose clock runs (R275): its fast cycles advance it by their length, 1, 4/3, 2 or 4 units of 0.625 ns by the
throttle step, so that it stands at one of the 16, 12, 8 or 4 multiples of that, rounded down. Which one is free. -/
def subPhase (s : State) (east : Bool) : BitVec 4 :=
  let n := ([16, 12, 8, 4][(if east then s.power.stepE else s.power.stepW).toNat]?).getD 16
  BitVec.ofNat 4 ((Config.freePhase s.free).toNat % n * 16 / n)

/-- A timestamp of a unit: the tick's low 60 bits and the sub-tick phase: 0 for an ember unit or a stopped clock, else a free value. -/
def stampOf (unit : Nat) (s : State) : Word :=
  let base := s.time.tick <<< 4
  match unitHalf unit with
  | none => base
  | some east => if clockRuns s east then base ||| (subPhase s east).setWidth 64 else base

/-- One more free value has been used. -/
def useFree (s : State) : State := { s with free := s.free + 1 }

/-- A counter of fast cycles counts on (R417): how many cycles an event took is a free value (log 85). -/
def addCycles (off : Nat) (s : State) : State := useFree (ctrAdd off (Config.freeCycles s.free) s)

/-! ### Steps and the plan in force -/

/-- The current step number. -/
def stepNo (s : State) : Nat := s.step.number.toNat

/-- STATE of KX_STEP_STATUS. -/
def stepCode (s : State) : Nat :=
  match s.step.state with
  | .idle => 0
  | .armed => 1
  | .opened => 2
  | .done => 3
  | .halted => 4

/-- In OPEN or DONE. -/
def running (s : State) : Bool := s.step.state == .opened || s.step.state == .done

/-- STATE of KX_KINDLE_STATUS (R303). -/
def kindleCode (s : State) : Nat :=
  match s.kindle.state with
  | .cold => 0
  | .kindling => 1
  | .kindled => 2
  | .locked => 3
  | .ready => 4

/-- The kindling state is READY. -/
def isReady (s : State) : Bool := s.kindle.state == .ready

/-- Word `i` of the plan header. -/
def planWord (s : State) (i : Nat) : Word :=
  match s.image with
  | some im => (im.planW[i]?).getD 0
  | none => 0

/-- SEAL_GROUP. -/
def sealGroup (s : State) : Nat := fieldOf (planWord s 0) 24 8
/-- LAUNCH_GAP. -/
def launchGap (s : State) : Nat := fieldOf (planWord s 1) 32 32
/-- REPLAY_GAP. -/
def replayGap (s : State) : Nat := fieldOf (planWord s 1) 0 32
/-- STEP_REC_COUNTER. -/
def stepRecCounter (s : State) : Nat := fieldOf (planWord s 2) 58 6
/-- STEP_REC_EN. -/
def stepRecEn (s : State) : Bool := bitOf (planWord s 2) 57
/-- STEP_REC_ADDR. -/
def stepRecAddr (s : State) : Nat := fieldOf (planWord s 2) 0 22

/-- The plan entries of the loaded image. -/
def planEntries (s : State) : List PlanEntry :=
  match s.image with
  | some im => im.entries
  | none => []

/-- The entry with a plan index. -/
def entryAt (s : State) (p : Nat) : Option PlanEntry := (planEntries s)[p]?

/-- The OPERATION entries active in the current step, in plan order (R167). -/
def activeEntries (s : State) : List PlanEntry := (planEntries s).filter (fun e => eOpActive e (stepNo s))

/-- The group in force with a number: the image's, as RE-FORM left it (R399). -/
def groupNow (s : State) (g : Nat) : Option GroupDef := groupOf s.kiln.groups g

/-- The group of an entry. -/
def entryGroup (s : State) (e : PlanEntry) : Option GroupDef := groupNow s (eGroup e)

/-- A member argument as RE-FORM re-reads it: j above a removed member becomes j - 1 (R398). -/
def argShift (removed : List (Nat × Nat)) (g : Nat) (j : Nat) : Nat :=
  removed.foldl (fun a r => if r.1 = g ∧ r.2 < a then a - 1 else a) j

/-- W2[63:48] of an entry in force: a member argument for REDUCE, BCAST and PASS (R398). -/
def argNow (s : State) (e : PlanEntry) : Nat :=
  if eKind e = 1 ∨ eKind e = 3 ∨ eKind e = 7 then argShift s.kiln.removed (eGroup e) (eArg e) else eArg e

/-- TGT_MEMBER in force. -/
def tgtNow (s : State) (e : PlanEntry) : Nat := argShift s.kiln.removed (eGroup e) (eTgtMember e)

/-- C of an entry in force. -/
def cordsNow (s : State) (e : PlanEntry) : Nat :=
  match entryGroup s e with
  | some g => cordsFor e (posCount g)
  | none => 0

/-- The epoch of a group. -/
def epochOf (s : State) (g : Nat) : Nat := (smGet 0 s.tables.epochs g).toNat

/-- This instance's identifier. -/
def me (s : State) : Nat := s.kindle.instanceId.toNat

/-- The logical die index of this instance. -/
def myDie (s : State) : Option Nat := s.faults.myDie

/-- The default of KX_MEMBER: in no member list, INSTANCE 0xFF_FFFF. -/
def memberInit : Word := 0x3FFFFFC000000000

/-- KX_MEMBER[x]. -/
def memberWord (s : State) (x : Nat) : Word := smGet memberInit s.tables.members x

/-- INSTANCE of KX_MEMBER[x]. -/
def holderOf (s : State) (x : Nat) : Nat := fieldOf (memberWord s x) 38 24

/-- The logical die index that an instance holds, if the member table names it. -/
def dieOfInst (s : State) (inst : Nat) : Option Nat :=
  (s.tables.members.find? (fun p => fieldOf p.2 38 24 == inst && fieldOf p.2 62 2 == 1)).map Prod.fst

/-- The physical tile that holds a logical tile index now (R26, R387). -/
def physOf (s : State) (i : Nat) : Option Nat :=
  match s.faults.moved.find? (fun p => p.1 == i) with
  | some p => some p.2
  | none => s.kindle.logical[i]?

/-- The logical tile index that a physical tile holds now. -/
def logicalOf (s : State) (t : Nat) : Option Nat :=
  (List.range s.kindle.logical.length).find? (fun i => physOf s i == some t)

/-- The segment node of a logical position: that of its kindling tile (R47). -/
def segOfLogical (s : State) (i : Nat) : Nat := segOf ((s.kindle.logical[i]?).getD 0)

/-- The leaf of a physical tile. -/
def leafAt (s : State) (t : Nat) : Leaf := smGet Leaf.init s.leaves t

/-- Change a leaf. -/
def setLeaf (t : Nat) (f : Leaf → Leaf) (s : State) : State := { s with leaves := smMod Leaf.init s.leaves t f }

/-- The segment of a leaf lies in the half. -/
def segEast (i : Nat) : Bool := decide (8 ≤ i)

/-! ### Events and the log (R411 to R413) -/

/-- The severity of an event code (Table: Event codes). -/
def sevOf (code : Nat) : Nat :=
  if [0x0204, 0x0205, 0x0206, 0x0401, 0x0403, 0x0404, 0x0405, 0x0501, 0x0601, 0x0602, 0x0603, 0x0607, 0x0608, 0x0609, 0x0701,
      0x0702, 0x0807, 0x080A, 0x0902, 0x0903, 0x0905].contains code then 1
  else if [0x0105, 0x0207, 0x0301, 0x0304, 0x0305, 0x0606, 0x0703, 0x0704, 0x0806, 0x0808, 0x0809, 0x080C, 0x080F, 0x0904, 0x0A01,
      0x0A05].contains code then 2
  else if [0x0302, 0x0307, 0x0402, 0x0502, 0x060B, 0x060C, 0x0801, 0x0803, 0x0804, 0x080B].contains code then 3
  else if [0x0107, 0x0503, 0x0504, 0x0604, 0x0605, 0x060A].contains code then 4
  else if [0x0102, 0x0303, 0x0802, 0x0805, 0x080E, 0x0901].contains code then 5
  else 0

/-- The step context of an entry: step number and attempt (R411). -/
def stepContext (s : State) : Word := putField 16 48 (stepNo s) ||| putField 0 16 s.step.attempt.toNat

/-- Put an event among those of the same tick by UNIT, then EVENT (R413). -/
def insertEvent (e : LogEvent) : List LogEvent → List LogEvent
  | [] => [e]
  | x :: l =>
    if x.time >>> 4 = e.time >>> 4 ∧ (e.unit.toNat * 65536 + e.event.toNat < x.unit.toNat * 65536 + x.event.toNat) then
      e :: x :: l
    else x :: insertEvent e l

/-- An event enters the queue; with 63 queued it is discarded and counted (R413). -/
def pushEvent (e : LogEvent) (s : State) : State :=
  if s.log.disabled then s
  else if 63 ≤ s.log.queue.length then
    { s with log := { s.log with dropped := satAdd s.log.dropped 1, lostCount := s.log.lostCount + 1,
                                 lostFirst := match s.log.lostFirst with
                                   | some f => some f
                                   | none => some e } }
  else { s with log := { s.log with queue := insertEvent e s.log.queue } }

/-- The codes of the events of Table: Events that add time (R296). -/
def addsTime (code : Nat) : Bool :=
  [0x0204, 0x0205, 0x0206, 0x0401, 0x0403, 0x0404, 0x0405, 0x0501, 0x0601, 0x0602, 0x0603, 0x0607, 0x0608, 0x0609, 0x0701, 0x0702,
   0x0801, 0x0803, 0x0807, 0x080A, 0x080B, 0x0902, 0x0903, 0x0905].contains code

/-- An event that adds time occurs: counted between the launch tick and the seal broadcast of the attempt (R296). -/
def noteTime (s : State) : State :=
  if running s || (s.step.state == .armed && decide (s.step.launch.toNat ≤ s.time.tick.toNat)) then
    { s with time := { s.time with exceptionsNow := s.time.exceptionsNow + 1 } }
  else s

/-- Log an event of a unit with its step context; an event that adds time also counts as an exception of the attempt (R296). -/
def logEv (code unit a b : Nat) (s : State) : State :=
  let e : LogEvent := { time := stampOf unit s, event := BitVec.ofNat 16 code, sev := BitVec.ofNat 3 (sevOf code), fwd := false,
                        unit := BitVec.ofNat 8 unit, origin := s.kindle.instanceId, e2 := stepContext s,
                        argA := BitVec.ofNat 32 a, argB := BitVec.ofNat 32 b, ctx := stepContext s }
  useFree (pushEvent e (if addsTime code then noteTime s else s))

/-- Log a wide event: E2 holds a 64-bit argument. -/
def logWide (code unit : Nat) (w : Word) (a b : Nat) (s : State) : State :=
  let e : LogEvent := { time := stampOf unit s, event := BitVec.ofNat 16 code, sev := BitVec.ofNat 3 (sevOf code), fwd := false,
                        unit := BitVec.ofNat 8 unit, origin := s.kindle.instanceId, e2 := w,
                        argA := BitVec.ofNat 32 a, argB := BitVec.ofNat 32 b, ctx := stepContext s }
  useFree (pushEvent e s)

/-- PC: plan index in [27:16], cord index in [15:0]. -/
def argPC (plan cord : Nat) : Nat := plan % 4096 * 65536 + cord % 65536

/-- TP: logical tile index in [31:22], plan index in [11:0]. -/
def argTP (tile plan : Nat) : Nat := tile % 1024 * 2 ^ 22 + plan % 4096

/-- Set bits of KX_FAULT_PENDING. -/
def setPend (m : BitVec 8) (s : State) : State := { s with faults := { s.faults with pending := s.faults.pending ||| m } }

/-- OTHER_SEEN: the fault attention line is raised under another chapter. -/
def otherSeen (s : State) : State := setPend 0x80 s

/-! ### The register port's counts (R434) -/

/-- An ignored write. -/
def countIgnored (off : Nat) (s : State) : State :=
  { s with rp := { s.rp with ignored := satAdd s.rp.ignored 1, lastKind := 1, lastOffset := BitVec.ofNat 25 off } }

/-- A cold access. -/
def countCold (off : Nat) (s : State) : State :=
  { s with rp := { s.rp with cold := satAdd s.rp.cold 1, lastKind := 2, lastOffset := BitVec.ofNat 25 off } }

/-- A decode error. -/
def countDecode (off : Nat) (s : State) : State :=
  { s with rp := { s.rp with decodeErr := satAdd s.rp.decodeErr 1, lastKind := 3, lastOffset := BitVec.ofNat 25 off } }

/-- What a port access returns. -/
def answer (d : Word) (err : Bool) (s : State) : State := { s with rp := { s.rp with rdata := d, err := err, ack := true } }

/-- The register port serves requests: RST_N is high and the block is out of test mode (R432, R459). -/
def portLive (s : State) : Bool := s.pins.rstN && !s.pins.testMode

/-- A write to a register of D0, D62 or D63: nothing happens while the port is dead; read data and RP_ERR are 0 (R430). -/
def hostWrite (s : State) (f : State → State) : State := onlyIf (portLive s) (answer 0 false s) f

/-! ### Levels and placements -/

/-- The working placement list of a node at level `l` of a group. -/
def placesOf (s : State) (g l coord : Nat) : List Nat := placeOf s.kiln.places g l coord

/-- Where cord `c` of a node is computed (R43); an L0 die node on the die itself, the root at the root placement (R42, R45). -/
def nodeSite (s : State) (g : GroupDef) (l coord c : Nat) : Option Nat :=
  if l = 0 then some (holderOf s coord)
  else siteOf s.kiln.places g.num l coord c

/-- The root placement of a group. -/
def rootInst (s : State) (g : Nat) : Nat := smGet 0xFFFFFF s.kiln.roots g

/-- This instance is the recovery coordinator and time master: the root placement of SEAL_GROUP (R278, R380). -/
def isCoordinator (s : State) : Bool :=
  s.image.isSome && (groupNow s (sealGroup s)).isSome && rootInst s (sealGroup s) == me s

/-- This instance is the root placement of a group. -/
def isRoot (s : State) (g : Nat) : Bool := rootInst s g == me s

/-- The node stages (R79) that this instance computes for a group: the L0 die node of a member die and the L1-L4 nodes whose working
list names it, as (level, coordinate). -/
def myNodes (s : State) (g : GroupDef) : List (Nat × Nat) :=
  (match myDie s with
    | some d => if (memberIdx g d).isSome then [(0, d)] else []
    | none => []) ++
  ((s.kiln.places.filter (fun p => p.group == g.num && p.entries.contains (me s))).map (fun p => (p.level, p.coord)))

/-- The node identifier of a level-`l` node. -/
def nodeId (l coord : Nat) : NodeId := { stage := Fin.ofNat 6 (l + 1), coord := BitVec.ofNat 16 coord, seg := 0 }

/-- The node identifier of a segment node of a die. -/
def segNode (die seg : Nat) : NodeId := { stage := 0, coord := BitVec.ofNat 16 die, seg := Fin.ofNat 16 seg }

/-- The level of a node: 0 for both L0 nodes. -/
def nodeLevel (n : NodeId) : Nat := n.stage.val - 1

/-! ### Kiln units and stops (R12, R262) -/

/-- The units in service, ascending. -/
def kilnsWorking (s : State) : List Nat := (List.range 8).filter (fun k => s.kiln.unitWorking.getLsbD k)

/-- The kiln unit for cord `c` (R12). -/
def kilnFor (s : State) (c : Nat) : Option Nat :=
  let ks := kilnsWorking s
  if ks.isEmpty then none else ks[c % ks.length]?

/-- The unit code at each stop, in Table: Ring stop order. -/
def stopTable : List Nat :=
  [0x51, 0x40, 0x30, 0x00, 0x41, 0x01, 0x20, 0x42, 0x31, 0x02, 0x43, 0x03, 0x21] ++
  [0x44, 0x32, 0x04, 0x45, 0x05, 0x22, 0x46, 0x33, 0x06, 0x47, 0x07, 0x08] ++
  [0x09, 0x48, 0x34, 0x0A, 0x49, 0x0B, 0x23, 0x4A, 0x35, 0x0C, 0x4B, 0x0D] ++
  [0x24, 0x4C, 0x36, 0x0E, 0x4D, 0x0F, 0x25, 0x4E, 0x37, 0x10, 0x4F, 0x11]

/-- The kiln unit that works on cord `c`, as a unit code. -/
def kilnCode (s : State) (c : Nat) : Nat := unitKiln ((kilnFor s c).getD 0)

/-- The stop of a unit. -/
def stopOf (unit : Nat) : Nat := (indexIn unit stopTable).getD 0

/-- The unit at a stop. -/
def unitAt (stop : Nat) : Nat := (stopTable[stop]?).getD 0xFF

/-- Stops 25 to 48 lie on the east half. -/
def eastStop (stop : Nat) : Bool := decide (25 ≤ stop)

/-- Data flits of a cord (R222). -/
def flitsOf (c : Cord) : Nat := ceilDiv (64 + c.payload.length) 248

/-! ### Links -/

/-- Number of a link unit: ports 0-17, modules 18-23. -/
def linkNo : Link → Nat
  | .port p => p.val
  | .module u => 18 + u.val

/-- The link unit with a number. -/
def linkOf (k : Nat) : Link := if k < 18 then .port (Fin.ofNat 18 k) else .module (Fin.ofNat 6 (k - 18))

/-- A link unit. -/
def linkAt (s : State) (k : Nat) : LinkSt := smGet (LinkSt.init k) s.links k

/-- Change a link unit. -/
def setLink (k : Nat) (f : LinkSt → LinkSt) (s : State) : State :=
  { s with links := smMod (LinkSt.init k) s.links k f }

/-- Configuration of port `p` in the image. -/
def portCfg (s : State) (p : Nat) : Option PortCfg := s.image.bind (fun im => im.ports[p]?)

/-- Configuration of module `u`. -/
def modCfg (s : State) (u : Nat) : Option ModCfg := s.image.bind (fun im => im.modules[u]?)

/-- The port whose configuration a port works under: the one it stands for, once it has taken over (R244). -/
def actsFor (s : State) (p : Nat) : Nat :=
  let l := linkAt s p
  if l.role = 2 then l.standsFor.toNat else p

/-- The configuration a port works under. -/
def effPort (s : State) (p : Nat) : Option PortCfg := portCfg s (actsFor s p)

/-- The port is configured for Ethernet. -/
def isEth (s : State) (k : Nat) : Bool :=
  decide (k < 18) && match portCfg s k with
    | some c => c.mode == 3
    | none => false

/-- The port runs protocol 2 (R247). -/
def isP2 (s : State) (k : Nat) : Bool :=
  decide (k < 18) && match portCfg s k with
    | some c => c.mode == 2
    | none => false

/-- The level of a link unit; modules are L1 (R208). -/
def linkLevel (s : State) (k : Nat) : Nat :=
  if k < 18 then (match effPort s k with
    | some c => c.level
    | none => 0)
  else 1

/-- A link that carries traffic: UP, or UP but for a degrade or retrain in progress. -/
def linkUp (s : State) (k : Nat) : Bool :=
  match (linkAt s k).state with
  | .up => true
  | .degrading => true
  | .retraining => decide (18 ≤ k) || (linkAt s k).lanesGood != 0
  | .training => (linkAt s k).rewiden.isSome
  | _ => false

/-- A flow of an Ethernet port is up. -/
def flowAt (s : State) (k f : Nat) : Flow := smGet Flow.init (linkAt s k).flows f

/-- Change a flow. -/
def setFlow (k f : Nat) (g : Flow → Flow) (s : State) : State :=
  setLink k (fun l => { l with flows := smMod Flow.init l.flows f g }) s

/-- The port that serves position `p` of a port set: `p` itself while it works, or the spare that has taken it over (R244). -/
def serving (s : State) (p : Nat) : Option Nat :=
  if linkUp s p && (linkAt s p).role == 0 then some p
  else (List.range 18).find? (fun q => linkUp s q && (linkAt s q).role == 2 && (linkAt s q).standsFor.toNat == p)

/-- The modules that reach an instance directly, ascending, while they work. -/
def moduleSet (s : State) (inst : Nat) : List (Nat × Nat) :=
  (List.range 6).filterMap (fun u => match modCfg s u with
    | some c => if c.enabled && c.peerInst == inst && linkUp s (18 + u) then some (18 + u, 0) else none
    | none => none)

/-- The intermediate die by which a die of the package is reached (R212): the RELAY_VIA of a module record that names it. -/
def relayVia (s : State) (inst : Nat) : Option Nat :=
  match dieOfInst s inst, s.image, myDie s with
  | some d, some im, some own =>
    if d / 8 = own / 8 then
      (im.modules.findSome? (fun m => if m.enabled then (m.relays.find? (fun r => r.1 == d % 8)).map Prod.snd else none)).map
        (fun via => holderOf s (own / 8 * 8 + via))
    else none
  | _, _, _ => none

/-- The instances of the package that are reached through the die at `via` (R212). -/
def relayedBy (s : State) (via : Nat) : List Nat :=
  match myDie s with
  | some m => ((List.range 8).map (fun i => holderOf s (m / 8 * 8 + i))).filter (fun i =>
      i != me s && relayVia s i == some via && (moduleSet s i).isEmpty)
  | none => []

/-- An instance is reached at a level by relay (R212). -/
def relayed (s : State) (inst level : Nat) : Bool := decide (level = 1) && (moduleSet s inst).isEmpty && (relayVia s inst).isSome

/-- A control message for a die that is reached by relay names that die and its sender in C7, which R223 reserves: the rules say that it
crosses the intermediate die to the target (R212) and give its layout no place for a target. DESIGN CHOICE, log 74. -/
def relayStamp (s : State) (inst : Nat) (m : Msg) : Msg :=
  { m with m7 := bitAt 63 true ||| putField 32 24 (me s) ||| putField 0 24 inst }

/-- The die to which a control message is relayed. -/
def relayTo (m : Msg) : Option Nat := if bitOf m.m7 63 then some (fieldOf m.m7 0 24) else none

/-- The die that sent a relayed control message. -/
def relayFrom (m : Msg) : Option Nat := if bitOf m.m7 63 then some (fieldOf m.m7 32 24) else none

/-- The working links to an instance at a level, in the order of its set, each with its hall flow (R211). A relayed link counts as one link,
over the first module of each hop (R212). -/
def linkSet (s : State) (inst level : Nat) : List (Nat × Nat) :=
  if level = 1 then
    let direct := moduleSet s inst
    if direct.isEmpty then (match relayVia s inst with
      | some v => (moduleSet s v).take 1
      | none => [])
    else direct
  else
    (List.range 18).filterMap (fun p => match portCfg s p with
      | some c =>
        if c.spare || c.level != level then none
        else if c.mode = 3 then
          (match c.peers.findIdx? (fun x => x.inst == inst), serving s p with
            | some f, some q => if (flowAt s q f).state = 2 then some (q, f) else none
            | _, _ => none)
        else if (c.mode = 1 ∨ c.mode = 2) ∧ c.peerInst = inst then (serving s p).map (fun q => (q, 0))
        else none
      | none => none)

/-- The instance at the far end of a link (of a hall flow on an Ethernet port). -/
def peerOf (s : State) (k f : Nat) : Nat :=
  if k < 18 then (match effPort s k with
    | some c => if c.mode = 3 then ((c.peers[f]?).map (fun x => x.inst)).getD 0xFFFFFF else c.peerInst
    | none => 0xFFFFFF)
  else ((modCfg s (k - 18)).map (fun c => c.peerInst)).getD 0xFFFFFF

/-- The instance an arrival comes from. -/
def srcInst (s : State) (a : Src) : Nat :=
  match a with
  | .link l f => peerOf s (linkNo l) f
  | _ => me s

/-! ### On-die transport (chapter 09) -/

/-- The hall flow that an arrival came by. -/
def srcFlow (a : Arrival) : Nat :=
  match a.src with
  | .link _ f => f
  | _ => 0

/-- An arrival is a drain marker. -/
def isMark (a : Arrival) : Bool :=
  match a.body with
  | .ctrl m => mType m == 2
  | _ => false

/-- Put an arrival in the inbox. -/
def deliver (a : Arrival) (s : State) : State := { s with inbox := s.inbox ++ [a] }

/-- Queue a cord on a channel of a link transmitter. -/
def queueTx (k vc : Nat) (q : TxCord) (s : State) : State :=
  setLink k (fun l => { l with chans := modAt l.chans vc (fun ch => { ch with queue := ch.queue ++ [q] }) }) s

/-- Queue a cord of this instance on a channel of a link transmitter. -/
def queueCord (k flow vc : Nat) (c : Cord) (again : Bool) (s : State) : State :=
  queueTx k vc { cord := c, sent := 0, flow := flow, again := again, void := false, mark := none } s

/-- A drain marker takes its place in a channel's queue (R182, R250): one of this instance before the cords that have not begun to go, which
are of the relaunch since abandonment dropped the others; one that is relayed after all that came before it. -/
def queueMark (own : Bool) (m : Msg) (q : List TxCord) : List TxCord :=
  let x : TxCord := { cord := cordOfBytes [], sent := 0, flow := 0, again := true, void := false, mark := some m }
  let ahead := fun (y : TxCord) => decide (0 < y.sent) || y.mark.isSome
  if own then q.takeWhile ahead ++ x :: q.dropWhile ahead else q ++ [x]

/-- A message joins a link's queue: a control message (R223) or a management message (R224); on an Ethernet port both wait for a frame of
their flow (R237, R250). A drain marker of a data channel takes its place in that channel's queue (R182, R250). -/
def linkMsg (k f : Nat) (ctrl : Bool) (m : Msg) (s : State) : State :=
  setLink k (fun l =>
    if isEth s k then { l with flowMgmt := smMod [] l.flowMgmt f (fun q => q ++ [(ctrl, m)]) }
    else if ctrl && mType m == 2 && decide (fieldOf m.m0 53 3 < 4) then
      { l with chans := modAt l.chans (fieldOf m.m0 53 3) (fun c =>
          { c with queue := queueMark ((relayFrom m).all (· == me s)) m c.queue }) }
    else if ctrl then { l with ctrlQ := l.ctrlQ ++ [m] }
    else { l with mgmtQ := l.mgmtQ ++ [m] }) s

/-- A cord or message for the stops of other units waits at its source stop. -/
def queueItem (again : Bool) (here : Nat) (ds : List Nat) (vc : Nat) (a : Arrival) (leaves : List (Nat × Nat)) (s : State) : State :=
  let n := match a.body with
    | .cord c => flitsOf c
    | .root c => flitsOf c
    | _ => 1
  let it : RingItem := { id := s.fabric.nextId, src := here, dests := ds, vc := vc, flits := n, sent := [], arrived := 0, void := false,
                         waited := false,
                         again := again, item := a, leaves := leaves }
  { s with fabric := { s.fabric with items := s.fabric.items ++ [it], nextId := s.fabric.nextId + 1 } }

/-- The link that carries what was meant for link `k` and flow `f` once `k` has failed: the link for the index in the set that is left
(R211, R246). -/
def instead (s : State) (k f idx : Nat) : Option (Nat × Nat) :=
  let set := linkSet s (peerOf s k f) (linkLevel s k)
  if set.isEmpty then none else set[idx % set.length]?

/-- What no link of its set carries now stays with its sender (R209, R246). -/
def park (unit inst level vc : Nat) (b : Body) (again : Bool) (s : State) : State :=
  { s with fabric := { s.fabric with parked := s.fabric.parked ++
      [{ unit := unit, inst := inst, level := level, vc := vc, body := b, again := again }] } }

/-- What comes out of the rings at a link's stop for a link that has failed goes on to the link that replaces it, or waits there for one
(R246). -/
def passOn (stop k f idx : Nat) (it : RingItem) (s : State) : State :=
  match instead s k f idx with
  | some (q, g) => if stopOf (unitLink q) = stop then s
      else queueItem true stop [stopOf (unitLink q)] it.vc { it.item with src := .link (linkOf q) g } [] s
  | none => park (unitLink k) (peerOf s k f) (linkLevel s k) it.vc it.item.body true s

/-- Give a buffer back. -/
def giveBuf (b : Nat) (s : State) : State :=
  { s with kiln := { s.kiln with used := s.kiln.used.filter (fun p => p.1 != b) } }

/-- What comes out of the rings at a stop: at a link it gives its buffer back and joins the channel's queue, elsewhere it waits to be processed. A
landing copy goes to the leaves named for the stop's segment, a BARRIER to the segment for all of them (R106). -/
def ejectAt (stop : Nat) (it0 : RingItem) (s0 : State) : State :=
  let u := unitAt stop
  let out := decide (u < 0x30)
  let s := if out then withSome it0.item.buf s0 giveBuf else s0
  let it := if out then { it0 with item := { it0.item with buf := none } } else it0
  if out then
    (match it.item.src, it.item.body with
      | .link l f, b =>
        if (linkAt s (linkNo l)).state = .failed then
          passOn stop (linkNo l) f (match b with
            | .cord c => cIdx c
            | _ => 0) it s
        else (match b with
          | .cord c => queueTx (linkNo l) it.vc
              { cord := c, sent := 0, flow := f, again := it.again, void := false, mark := none, relay := it.item.relay } s
          | .ctrl m => linkMsg (linkNo l) f true m s
          | .mgmt m => linkMsg (linkNo l) f false m s
          | .root _ => s)
      | _, _ => s)
  else if it.leaves.isEmpty then deliver it.item s
  else match it.item.body with
    | .cord c =>
      if cKind c = 5 then deliver { it.item with src := .seg (u - 0x40) } s
      else forEach (it.leaves.filter (fun p => segOf p.1 + 0x40 == u)) s (fun p t =>
        setLeaf p.1 (fun l => { l with landQ := l.landQ ++ [{ slot := p.2, buf := none, seq := it.id, cord := c }] }) t)
    | _ => s

/-- A seam lane of a ring. -/
def laneKey (ring : Nat) (east : Bool) : Nat := 2 * ring + (if east then 0 else 1)
/-- The flits in a seam lane, oldest first. -/
def laneAt (s : State) (ring : Nat) (east : Bool) : List RingFlit := smGet [] s.fabric.lanes (laneKey ring east)
/-- The lane has no free entry: 32 beats are 8 flits (R268). -/
def laneFull (s : State) (ring : Nat) (east : Bool) : Bool := decide (8 ≤ (laneAt s ring east).length)
/-- A beat holds for lack of an entry in the lane (KX_SEAM_STATUS EB_HOLD and WB_HOLD, R269). -/
def laneHolds (s : State) (ring : Nat) (east : Bool) : Bool :=
  laneFull s ring east && (smGet [] s.fabric.flight ring).any (fun fl => fl.cross.head? == some east)
/-- EB_HOLD or WB_HOLD: one bit for each ring. -/
def laneHoldBits (s : State) (east : Bool) : Nat := (List.range 8).foldl (fun m r => if laneHolds s r east then m + 2 ^ r else m) 0

/-- Put a cord or message on the rings from a unit to the stops of other units; a destination that is the source's own stop receives it at
once. `again` marks a re-send. -/
def onRings (again : Bool) (src : Nat) (dests : List Nat) (vc : Nat) (a : Arrival) (leaves : List (Nat × Nat)) (s : State) : State :=
  let here := stopOf src
  let ds := sortedSet (dests.map stopOf)
  let far := ds.filter (· != here)
  let it : RingItem := { id := s.fabric.nextId, src := here, dests := ds, vc := vc, flits := 0, sent := [], arrived := 0, void := false,
                         waited := false,
                         again := again, item := a, leaves := leaves }
  let s1 := if ds.contains here then ejectAt here it s else s
  if far.isEmpty then s1 else queueItem again here far vc a leaves s1

/-- Send a cord or message from a unit to the stops of other units. -/
def toStops (src : Nat) (dests : List Nat) (vc : Nat) (a : Arrival) (leaves : List (Nat × Nat)) (s : State) : State :=
  onRings false src dests vc a leaves s

/-- Send a cord from an on-die unit to another instance at a level (R211): entry (c mod m) of the set's working links. Where no link
works, the cord stays with its sender (R209). -/
def sendInst (src inst level vc : Nat) (c : Cord) (again : Bool) (s : State) : State :=
  let set := linkSet s inst level
  match set[cIdx c % set.length]? with
  | some (k, f) => onRings again src [unitLink k] vc { src := .link (linkOf k) f, vc := vc, body := .cord c } [] s
  | none => park src inst level vc (.cord c) again s

/-- A control message that a link's own controller makes (R223). -/
def ctrlOn (k f : Nat) (m : Msg) (s : State) : State := linkMsg k f true m s

/-- The channel of the rings on which a message travels: a drain marker goes on the channel that it names, any other message on VC4 (R11). -/
def msgVc (ctrl : Bool) (m : Msg) : Nat := if ctrl && mType m == 2 then min (fieldOf m.m0 53 3) 4 else 4

/-- A message goes to a link from the plan engine, in its channel of the rings and by the stop that it shares with the finishing stage (R10,
R11). -/
def msgOn (ctrl : Bool) (k f : Nat) (m : Msg) (s : State) : State :=
  toStops unitFS [unitLink k] (msgVc ctrl m)
    { src := .link (linkOf k) f, vc := msgVc ctrl m, body := if ctrl then .ctrl m else .mgmt m } [] s

/-- A management message goes to a link (R224). -/
def mgmtOn (k f : Nat) (m : Msg) (s : State) : State := msgOn false k f m s

/-- A management message to an instance at a level: on the lowest-numbered working link of the set (R211); with none it waits. -/
def mgmtTo (inst level : Nat) (m : Msg) (s : State) : State :=
  match linkSet s inst level with
  | (k, f) :: _ => mgmtOn k f m s
  | [] => park unitFS inst level 4 (.mgmt m) false s

/-- A control message to an instance at a level. -/
def ctrlTo (inst level : Nat) (m : Msg) (s : State) : State :=
  match linkSet s inst level with
  | (k, f) :: _ => msgOn true k f (if relayed s inst level then relayStamp s inst m else m) s
  | [] => park unitFS inst level 4 (.ctrl m) false s

/-- Send on what waited for a link (R246): whatever still finds none waits on. -/
def unpark (s : State) : State :=
  forEach s.fabric.parked { s with fabric := { s.fabric with parked := [] } } (fun p t => match p.body with
    | .cord c => sendInst p.unit p.inst p.level p.vc c p.again t
    | .mgmt m => mgmtTo p.inst p.level m t
    | .ctrl m => ctrlTo p.inst p.level m t
    | .root _ => t)

/-- What waits for a peer that no link reaches any more is given up. -/
def unparkLost (inst level : Nat) (s : State) : State :=
  { s with fabric := { s.fabric with parked := s.fabric.parked.filter (fun p => !(p.inst == inst && p.level == level)) } }

/-- M0 of a management message (R224). M0[55:32] holds the source and M0[31:8] the destination. -/
def mkM0 (s : State) (type dest : Nat) : Word :=
  putField 56 8 type ||| putField 32 24 (me s) ||| putField 8 24 dest

/-- Source instance of a management message. -/
def mSrc (m : Msg) : Nat := fieldOf m.m0 32 24
/-- Destination instance of a management message. -/
def mDest (m : Msg) : Nat := fieldOf m.m0 8 24

/-! ### Routes along the seal group's tree (R381) -/

/-- The level at which two dies are joined directly: that of the lowest node that holds both. -/
def joinLevel (a b : Nat) : Nat := topOf [a, b]

/-- The instances next to a node of a group: its parent's working placements and its children's instances, each with the level of the
hop. -/
def treeNeighbours (s : State) (g : GroupDef) (l coord : Nat) : List (Nat × Nat) :=
  (if l < g.topLevel then (placesOf s g.num (l + 1) (coordAt (l + 1) coord)).map (fun i => (i, l + 1)) else []) ++
  (if l = 0 then [] else
    ((childrenOf g l coord).map (fun c => if l = 1 then [(holderOf s c, 1)]
      else (placesOf s g.num (l - 1) c).map (fun i => (i, l)))).flatten)

/-- Every neighbour of this instance in the seal group's tree, without itself. -/
def sealNeighbours (s : State) : List (Nat × Nat) :=
  match groupNow s (sealGroup s) with
  | some g => (((myNodes s g).map (fun n => treeNeighbours s g n.1 n.2)).flatten.filter (fun p => p.1 != me s)).eraseDups
  | none => []

/-- An instance lies below the node at level `l` and coordinate `coord` of a group: it holds a member die there or is a placement of a
node there. -/
def below (s : State) (g : GroupDef) (l coord inst : Nat) : Bool :=
  (memberDies g).any (fun d => coordAt l d == coord && holderOf s d == inst) ||
    s.kiln.places.any (fun p => p.group == g.num && decide (p.level ≤ l) && coordAt l p.coord == coord && p.entries.contains inst)

/-- The first working link of an instance outside the seal group's tree to one that is in it, with its level (R381): a pool instance reaches the
coordinator over it. DEDUCED, log 93. -/
def treeLink (s : State) (g : GroupDef) : Option (Nat × Nat) :=
  (List.range 24).findSome? (fun k =>
    let fs := if isEth s k then List.range (((effPort s k).map (fun c => c.peers.length)).getD 0) else [0]
    if !linkUp s k || (linkAt s k).role == 1 then none
    else (fs.find? (fun f => below s g g.topLevel (rootCoord g) (peerOf s k f) && (!isEth s k || (flowAt s k f).state == 2))).map
      (fun f => (peerOf s k f, linkLevel s k)))

/-- The next instance on the way to a destination, with the level of the hop: the destination itself where a link reaches it, else the
child whose subtree holds it, else the parent (R381). -/
def nextHop (s : State) (dest : Nat) : Option (Nat × Nat) :=
  match [1, 2, 3, 4].find? (fun l => !(linkSet s dest l).isEmpty) with
  | some l => some (dest, l)
  | none =>
    match groupNow s (sealGroup s) with
    | none => none
    | some g =>
      let ns := myNodes s g
      let down := (ns.map (fun n => if n.1 = 0 then [] else
        (childrenOf g n.1 n.2).filterMap (fun c =>
          if below s g (n.1 - 1) c dest then
            (if n.1 = 1 then some (holderOf s c, 1)
             else (placesOf s g.num (n.1 - 1) c).head?.map (fun i => (i, n.1)))
          else none))).flatten.filter (fun p => p.1 != me s)
      match down with
      | p :: _ => some p
      | [] =>
        match ((ns.map (fun n => if n.1 < g.topLevel then
            (placesOf s g.num (n.1 + 1) (coordAt (n.1 + 1) n.2)).map (fun i => (i, n.1 + 1)) else [])).flatten.filter
          (fun p => p.1 != me s)).head? with
        | some p => some p
        | none => if ns.isEmpty then treeLink s g else none

/-- Send a management message towards a destination instance; to itself it goes straight to the inbox. -/
def route (dest : Nat) (m : Msg) (s : State) : State :=
  if dest = me s then deliver { src := .self 0, vc := 4, body := .mgmt m } s
  else match nextHop s dest with
    | some (inst, l) => mgmtTo inst l m s
    | none => s

/-- The content is a LOG_FORWARD message. -/
def isForward (b : Body) : Bool :=
  match b with
  | .mgmt m => mType m == 7
  | _ => false

/-- LOG_FORWARD messages that wait for VC4: on the rings on the way to a link, for a link, or on the instance's links (R416). -/
def forwardsWaiting (s : State) : Nat :=
  (s.fabric.items.filter (fun it => isForward it.item.body && !it.item.relay && !it.dests.contains (stopOf unitFS))).length +
  (s.fabric.parked.filter (fun p => isForward p.body)).length +
  s.links.foldl (fun n p => n + (p.2.mgmtQ.filter (fun m => mType m == 7)).length +
    p.2.flowMgmt.foldl (fun k q => k + (q.2.filter (fun m => !m.1 && mType m.2 == 7)).length) 0) 0

/-- A LOG_FORWARD message for `dest` has one of the 256 places of those that wait for VC4, and a way (R416). -/
def roomForward (s : State) (dest : Nat) : Bool := decide (forwardsWaiting s < 256) && (nextHop s dest).isSome

/-- A LOG_FORWARD message goes on toward its collector; with 256 waiting, or no way on, it is discarded and counted (R416). -/
def passForward (dest : Nat) (m : Msg) (s : State) : State :=
  if roomForward s dest then route dest m s
  else { s with log := { s.log with fwdDropped := satAdd s.log.fwdDropped 1 } }

/-- The pool instances that the coordinator's list names (R392). -/
def poolInsts (s : State) : List Nat :=
  s.faults.pool.filterMap (fun p => if bitOf p.2 63 then some (fieldOf p.2 25 24) else none)

/-- The instances that the member lists, placement tables, standby lists and system map name (R180). -/
def namedInsts (im : Image) : List Nat :=
  im.sysMap.map Prod.snd ++ im.places.flatMap (fun p => p.entries) ++ im.groups.flatMap (fun g => g.standby)

/-- The KX4 peers of this instance that its image names nowhere: pool instances (R392). DEDUCED, UNSAFE (log 93): the list of KX_STANDIN_POOL
stands at the coordinator alone, and another instance knows a pool instance by this. -/
def unnamedPeers (s : State) : List Nat :=
  match s.image with
  | some im => ((im.ports.filter (fun c => c.mode == 1)).map (fun c => c.peerInst) ++
      (im.ports.filter (fun c => c.mode == 3)).flatMap (fun c => c.peers.map (fun p => p.inst)) ++
      (im.modules.filter (fun m => m.enabled)).map (fun m => m.peerInst)).filter (fun i => !(namedInsts im).contains i)
  | none => []

/-- The UP links on which a flooded message leaves, with their flows: those to neighbours in the seal group's tree and to pool
instances (R381). -/
def floodLinks (s : State) : List (Nat × Nat) :=
  let insts := (sealNeighbours s).map Prod.fst ++ poolInsts s ++ unnamedPeers s
  (List.range 24).flatMap (fun k =>
    if !linkUp s k || (linkAt s k).role == 1 then []
    else if isEth s k then
      (match effPort s k with
        | some c => (List.range c.peers.length).filterMap (fun f =>
            if insts.contains (peerOf s k f) && (flowAt s k f).state == 2 then some (k, f) else none)
        | none => [])
    else if insts.contains (peerOf s k 0) then [(k, 0)] else [])

/-- Flood a message on every such link. -/
def flood (m : Msg) (s : State) : State :=
  let all := { m with m0 := setField m.m0 8 24 0xFFFFFF }
  let far := (((sealNeighbours s).filter (fun p => p.2 == 1)).map Prod.fst).eraseDups.filter (fun i => (moduleSet s i).isEmpty)
  forEach (far.filter (fun i => !(linkSet s i 1).isEmpty)) (forEach (floodLinks s) s (fun p t => mgmtOn p.1 p.2 all t))
    (fun i t => mgmtTo i 1 { m with m0 := setField m.m0 8 24 i } t)

/-! ### Messages of the failure and log chapters -/

/-- A PLACEMENT_CHANGE message (Table: PLACEMENT_CHANGE body) from this instance. -/
def mkChange (s : State) (dest kind group : Nat) (allGroups noIndex : Bool) (seq die node level old new epoch : Nat)
    (m5 m6 : Word) : Msg :=
  { m0 := mkM0 s 2 dest,
    m1 := putField 56 8 kind ||| putField 48 8 group ||| bitAt 47 allGroups ||| bitAt 46 noIndex ||| putField 0 32 seq,
    m2 := stepContext s,
    m3 := putField 48 16 die ||| putField 32 16 node ||| putField 28 4 level,
    m4 := putField 40 24 old ||| putField 16 24 new ||| putField 0 16 epoch,
    m5 := m5, m6 := m6, m7 := 0 }

/-- CHANGE_KIND (or FB_KIND). -/
def pcKind (m : Msg) : Nat := fieldOf m.m1 56 8
/-- GROUP. -/
def pcGroup (m : Msg) : Nat := fieldOf m.m1 48 8
/-- NO_INDEX. -/
def pcNoIndex (m : Msg) : Bool := bitOf m.m1 46
/-- CHANGE_SEQ. -/
def pcSeq (m : Msg) : Nat := fieldOf m.m1 0 32
/-- LOGICAL_DIE. -/
def pcDie (m : Msg) : Nat := fieldOf m.m3 48 16
/-- NODE. -/
def pcNode (m : Msg) : Nat := fieldOf m.m3 32 16
/-- LEVEL. -/
def pcLevel (m : Msg) : Nat := fieldOf m.m3 28 4
/-- OLD_INSTANCE. -/
def pcOld (m : Msg) : Nat := fieldOf m.m4 40 24
/-- NEW_INSTANCE. -/
def pcNew (m : Msg) : Nat := fieldOf m.m4 16 24
/-- NEW_EPOCH. -/
def pcEpoch (m : Msg) : Nat := fieldOf m.m4 0 16

/-! ### The seal row (R358 to R365, R463) -/

/-- The identity of each SEAL lane. -/
def sealIdentity : Row :=
  (List.range 32).map (fun i => if i < 8 then (0xFFFFFFFF : BitVec 32) else if 16 ≤ i ∧ i < 20 then 0xFFFFFFFF else 0)

/-- The identity of each VOTE lane. -/
def voteIdentityRow : Row :=
  (List.range 32).map (fun i => if i < 8 ∨ (16 ≤ i ∧ i < 24) then (0xFFFFFFFF : BitVec 32) else 0)

/-- The die is a member of the seal group: its member index. -/
def sealMember (s : State) : Option Nat :=
  match groupNow s (sealGroup s), myDie s with
  | some g, some d => memberIdx g d
  | _, _ => none

/-- FIRST_NF of this instance (R360). -/
def firstNf (s : State) : BitVec 32 :=
  match s.step.nfPlans with
  | [] => 0xFFFFFFFF
  | p :: ps =>
    let low := ps.foldl min p
    match sealMember s with
    | some m => BitVec.ofNat 32 (m % 65536 * 4096 + low % 4096)
    | none => BitVec.ofNat 32 (2 ^ 28 + 0xFFFF * 4096 + low % 4096)

/-- DIGEST and COUNT of the attempt: the sums of the per-operation values (R362, R363). -/
def digestSum (s : State) : BitVec 32 := s.step.digestCur.foldl (fun a p => a + p.2.1) 0
/-- COUNT. -/
def countSum (s : State) : BitVec 32 := s.step.digestCur.foldl (fun a p => a + p.2.2) 0

/-- A Bool as a 32-bit bit. -/
def bit32 (i : Nat) (b : Bool) : BitVec 32 := if b then BitVec.ofNat 32 (2 ^ i) else 0

/-- The row of Table: Seal contribution as it stands. `short` is CONTROL bit 4. -/
def sealRow (short : Bool) (s : State) : Row :=
  let control := bit32 0 s.step.nfSkip ||| bit32 1 s.step.nfHalt ||| bit32 2 s.step.exhaustHalt ||| bit32 3 s.step.stopPending |||
    bit32 4 short
  let att := s.step.attempt.setWidth 32
  sealIdentity.mapIdx (fun i v =>
    if i = 8 then s.step.unclean
    else if i = 9 then s.step.flags.setWidth 32
    else if i = 10 then control
    else if i = 16 then firstNf s
    else if i = 17 then att
    else if i = 20 then att
    else if i = 24 then digestSum s
    else if i = 25 then countSum s
    else v)

/-- A row as the payload of an INT32 cord. -/
def rowBytesOf (r : Row) : List Byte := (r.map (fun v => leBytes 4 v.toNat)).flatten

/-- The row that an INT32 cord of one row carries. -/
def rowOfBytes (b : List Byte) : Row := (List.range 32).map (fun i => BitVec.ofNat 32 (ofLe (slice b (4 * i) 4)))

/-- A SEAL cord (R358): CORD_INDEX 0 contribution or broadcast, 1 early request, 2 launch check. -/
def mkSealCord (s : State) (idx level source target : Nat) (r : Row) : Cord :=
  sealCrc { w0 := mkW0 5 9 0 level (epochOf s (sealGroup s)) source, w1 := mkW1 (stepNo s) idx,
            w2 := mkW2 target 0 1 0, w3 := 1, w4 := 0, w5 := 0, w6 := 0, w7 := 0, payload := rowBytesOf r } 0

/-- Where an instance feeds its SEAL rows (R463): a member die at its L0 die node, any other at the lowest-level node whose working
list names it, the lowest coordinate there. -/
def feedNode (s : State) (g : GroupDef) (inst : Nat) : Option (Nat × Nat) :=
  match (memberDies g).find? (fun d => holderOf s d == inst) with
  | some d => some (0, d)
  | none =>
    [1, 2, 3, 4].findSome? (fun l =>
      match sortNat ((s.kiln.places.filter (fun p => p.group == g.num && p.level == l && p.entries.contains inst)).map
        (fun p => p.coord)) with
      | c :: _ => some (l, c)
      | [] => none)

/-- The non-member instances that feed at a node, in a fixed order: one more operand each (R463). -/
def extraFeeders (s : State) (g : GroupDef) (l coord : Nat) : List Nat :=
  ((placesOf s g.num l coord).filter (fun i => feedNode s g i == some (l, coord))).eraseDups

/-- Send a SEAL cord of a level and source from a unit to the placement that computes its index at a node; where that is this instance, to
the kiln unit of the index (R12), and an early request to the finishing stage's stop, since the plan engine takes it uncombined (R10, R365). -/
def sealTo (unit : Nat) (g : GroupDef) (l coord idx : Nat) (level source : Nat) (r : Row) (s : State) : State :=
  match nodeSite s g l coord idx with
  | none => s
  | some inst =>
    let c := mkSealCord s idx level source coord r
    if inst = me s then toStops unit [if idx = 1 then unitFS else kilnCode s idx] 0 { src := .self l, vc := 0, body := .cord c } [] s
    else sendInst unit inst l 0 c false s

/-- This instance feeds a SEAL row (R463): to its own L0 die node, or to the node of its placement; it enters the rings at the stop that the
plan engine shares with the finishing stage (R10). -/
def feedSeal (idx : Nat) (r : Row) (s : State) : State :=
  match groupNow s (sealGroup s) with
  | none => s
  | some g => match feedNode s g (me s) with
    | none => s
    | some (l, c) => sealTo unitFS g l c idx l c r s

/-- The row as it stands (R365): SHORT as this instance reported it in its contribution, and 0 before that (R199). -/
def rowNow (s : State) : Row := sealRow s.step.shortSent s

/-- The UNCLEAN bits that an early request may carry now: while a splice waits for its HOLD_ACK, all but SPLICE (R383). -/
def earlyBits (s : State) : BitVec 32 := if s.faults.awaitAck then s.step.unclean &&& ~~~uSplice else s.step.unclean

/-- Send an early request with the row as it stands (R365), but for a SPLICE that waits for its HOLD_ACK (R383). -/
def sendEarly (s : State) : State :=
  feedSeal 1 ((rowNow s).set 8 (earlyBits s))
    { s with step := { s.step with earlySent := true, nEarly := satAdd s.step.nEarly 1 } }

/-- Raise an unclean reason in OPEN or DONE: the bit and an early request at once (R364, R365). -/
def raiseUnclean (bits : BitVec 32) (s : State) : State :=
  if running s then sendEarly { s with step := { s.step with unclean := s.step.unclean ||| bits } } else s

/-- Add to the per-operation digest and count of a plan index (R362, R363). -/
def addDigest (plan : Nat) (dg ct : BitVec 32) (s : State) : State :=
  { s with step := { s.step with digestCur := smMod (0, 0) s.step.digestCur plan (fun p => (p.1 + dg, p.2 + ct)) } }

/-- OR the flags of a cord this instance finished or landed into FLAGS (R360), and into the flags of its operation (R371). -/
def addFlags (plan fl : Nat) (s : State) : State :=
  { s with step := { s.step with flags := s.step.flags ||| BitVec.ofNat 16 fl,
                                 planFlags := smMod 0 s.step.planFlags plan (fun f => f ||| BitVec.ofNat 16 fl) } }

/-- An operation counts under R371: SUM in a floating-point or MX format, of a kind that combines. -/
def nfCounts (e : PlanEntry) : Bool :=
  decide (eFn e = 0) && (isFloat (eFmt e) || isMx (eFmt e)) && decide (eKind e ≤ 2)

/-- NF_SKIP or NF_HALT for an operation that this instance finished or landed, by the group's policy (R371). -/
def raiseNf (e : PlanEntry) (fl : Nat) (s : State) : State :=
  if nfCounts e && nonFinite fl then
    (match entryGroup s e with
      | some g => if g.nonfiniteHalt then { s with step := { s.step with nfHalt := true } }
          else { s with step := { s.step with nfSkip := true } }
      | none => s)
  else s

/-- This instance originates a non-finite value in a plan index (R372). -/
def originate (e : PlanEntry) (s : State) : State :=
  if nfCounts e && !s.step.nfPlans.contains (eIdx e) then
    { s with step := { s.step with nfPlans := s.step.nfPlans ++ [eIdx e] } }
  else s

/-- A cord is discarded: counted by reason and logged (R56, event 0x0306); reasons 1 to 5. -/
def discard (plan cord reason unit : Nat) (s : State) : State :=
  logEv 0x0306 unit (argPC plan cord) reason (ctrAdd (0x400 + 8 * (reason - 1)) 1 s)

/-- A protocol error is logged; in OPEN or DONE it makes the attempt unclean (R364): reason 2 under LINK_INTEGRITY, others under
PROTOCOL. -/
def protocolError (plan cord reason unit : Nat) (s : State) : State :=
  raiseUnclean (if reason = 2 then uLinkIntegrity else uProtocol) (logEv 0x0307 unit (argPC plan cord) reason s)

/-! ### Smoulder timers (R403) -/

/-- Ticks for which the skew and smoulder timers have been paused since kindling (R385). -/
def pausedTotal (s : State) : Nat :=
  s.faults.pausedTicks + (if s.faults.paused then s.time.tick.toNat - s.faults.pausedSince.toNat else 0)

/-- What a smoulder item waits for: a row of the table (1 a leaf's read, 2 its write, 3 a landing permit, 4 a segment, 5 a domain, 8 and up a node's
stage), the plan index where the row has one, and the party. -/
def progKey (row plan who : Nat) : Nat := (plan * 16 + row) * 2 ^ 32 + who

/-- A progress event (R403): what was waited for has moved now. -/
def noteProgress (key : Nat) (s : State) : State :=
  { s with faults := { s.faults with progress := smSet (0, 0) s.faults.progress key (s.time.tick.toNat, pausedTotal s) } }

/-- The lowest open index of a node stands at a value from now on. -/
def lowNow (s : State) (lo : Nat) : Nat × Nat × Nat := (lo, s.time.tick.toNat, pausedTotal s)

/-- The lowest open index of a node moves; what no open index can have entered its window by is forgotten. -/
def moveLow (s : State) (lo : Nat) (x : NodeInst) : NodeInst :=
  if lo = x.lowest then x
  else { x with lowest := lo, lows := (x.lows ++ [lowNow s lo]).filter (fun p => decide (lo < p.1 + x.win)) }

/-- The node for which a cord from a source is meant, and the child that sends it. -/
def nodeOfSrc (s : State) (src : Src) (c : Cord) : NodeId × Nat :=
  let die := (myDie s).getD 0
  match src with
  | .leaf _ => (segNode die (segOfLogical s (cTile c)), cTile c)
  | .seg g => (nodeId 0 die, g)
  | .link l _ => (nodeId (linkLevel s (linkNo l)) (coordAt (linkLevel s (linkNo l)) (cSource c)), cSource c)
  | .self k => (nodeId k (coordAt k (cSource c)), cSource c)

/-- A flit of an ascending cord arrives from a source: progress for what waits for that child of its node, and for a segment for whatever waits
for it (R403). -/
def heard (src : Src) (vc : Nat) (c : Cord) (s : State) : State :=
  if vc ≠ 0 ∨ !running s then s
  else
    let p := nodeOfSrc s src c
    let s1 := noteProgress (progKey (8 + p.1.stage.val) (cPlan c) p.2) s
    match src with
    | .seg g => noteProgress (progKey 4 0 g) s1
    | _ => s1

/-- The policies in force; before an image is accepted, those of an image that sets none. -/
def policy (s : State) (f : Policies → Nat) (dflt : Nat) : Nat :=
  match s.image with
  | some im => f im.policies
  | none => dflt

end Sys2Proof.Machine
end

