-- ==== Sys2Proof/Machine/TestAccess.lean ====
section
/-! DEFINITION. TestAccess.lean: the IEEE 1500 wrappers and the instruments of the IEEE 1687 network (R457, R458). Their instructions and their
selection come from the chip's TAP, outside the block: log 84. -/

namespace Sys2Proof.Machine

/-! ### Wrappers (R457) -/

/-- The wrappers of an instance: a hearth-only one has none on segments (R457, R460). -/
def wrappersOf (p : Params) : List Wrapper :=
  [.ember, .west, .east] ++ (if p.hearthOnly then [] else (List.finRange 16).map .seg)

/-- The domains of a wrapper's region (R457). -/
def Wrapper.domains : Wrapper → List Nat
  | .ember => [0, 62, 63]
  | .west => ((List.range 61).map (· + 1)).filter (fun d => !eastDom d)
  | .east => ((List.range 61).map (· + 1)).filter eastDom
  | .seg i => [i.val + 1]

/-- A wrapper's instruction. -/
def wsOf (s : State) (w : Wrapper) : WsInstr := ((s.pins.wrappers.find? (fun p => p.1 == w)).map Prod.snd).getD .bypass

/-- Outside WS_BYPASS the boundary cells of a wrapper, and not its region, drive what it stands on. -/
def cellsDrive (s : State) (w : Wrapper) : Bool := wsOf s w != .bypass

/-- An output of 64 bits at most with a boundary cell: `cell` numbers it. -/
def driven (s : State) (w : Wrapper) (cell : Nat) (v : Word) : Word := if cellsDrive s w then Config.freeCell s.free cell else v

/-- A single output with a boundary cell. -/
def drivenBit (s : State) (w : Wrapper) (cell : Nat) (v : Bool) : Bool := (driven s w cell (if v then 1 else 0)).getLsbD 0

/-- The region of a wrapper runs on its cells (WS_INTEST), or its flip-flops are a scan chain: what a register in it reads is free. -/
def regionShifted (s : State) (d : Nat) : Bool :=
  (wrappersOf s.params).any (fun w => (wsOf s w == .intest || wsOf s w == .scan) && w.domains.contains d)

/-- The wrapper of a link's half, and of a tile's segment. -/
def linkWrapper (k : Nat) : Wrapper := if eastDom (domLink k) then .east else .west

/-- The wrapper of a tile's segment. -/
def tileWrapper (t : Nat) : Wrapper := .seg (Fin.ofNat 16 (t / 36))

/-! ### Instruments (R458) -/

/-- The instruments of the IEEE 1687 network (R458). -/
inductive Instrument where
  | registerAccess
  | memoryBist
  | pllMonitor
  | pmaLoopback
  | residueTest
  deriving DecidableEq, Repr

/-- The number that an instrument has in the selection. -/
def Instrument.number : Instrument → Nat
  | .registerAccess => 0
  | .memoryBist => 1
  | .pllMonitor => 2
  | .pmaLoopback => 3
  | .residueTest => 4

/-- Register access always acts, every other instrument only while TEST_MODE is 1 (R458). -/
def instrumentActs (s : State) (i : Instrument) : Bool := i == .registerAccess || s.pins.testMode

/-- An instrument acts on a unit, a lane or a memory: TEST_MODE allows it and it has been selected for it. -/
def applied (s : State) (i : Instrument) (unit : Nat) : Bool := instrumentActs s i && Config.freeTest (s.pins.testNo + i.number) unit

/-- The residue test forces a mismatch at this kiln unit or segment combiner. -/
def residueForced (s : State) (unit : Nat) : Bool := applied s .residueTest unit

/-- The memory self-test has written its patterns into the ash log: what an entry reads is free until it is filled again (R459). -/
def logTested (s : State) : Bool := applied s .memoryBist 0x50

/-- A lane's loopback: near-end gives it its own transmit words, far-end sends back what it receives. -/
def nearLoop (s : State) (lane : Nat) : Bool := applied s .pmaLoopback lane

/-- Far-end loopback of a lane. -/
def farLoop (s : State) (lane : Nat) : Bool := applied s .pmaLoopback (144 + lane)

/-- The PLL monitor of a half: lock status and the counted output frequency, a free count; none with TEST_MODE at 0. -/
def pllMonitor (s : State) (east : Bool) : Option (Bool × Word) :=
  if instrumentActs s .pllMonitor then some (if east then s.power.pllE else s.power.pllW, Config.freeCell s.free (if east then 2 else 1)) else none

/-! ### Selection -/

/-- TEST_MODE has risen: each wrapper takes the instruction that the TAP puts into it, and the instruments their selection, both free (R457, R458).
PRESUMED, UNSAFE (log 84): with TEST_MODE at 0 every wrapper holds WS_BYPASS; the commands show no choice that changes while TEST_MODE stays 1. -/
def selectWrappers (s : State) : State :=
  let ws := (wrappersOf s.params).zipIdx.map (fun p =>
    (p.1, ([WsInstr.bypass, .extest, .intest, .scan][(Config.freeWs (s.free + p.2)).val]?).getD .bypass))
  { s with pins := { s.pins with wrappers := ws.filter (fun p => p.2 != .bypass), testNo := s.free }, free := s.free + ws.length }

end Sys2Proof.Machine
end

