-- ==== Sys2Proof/Machine/Regs.lean ====
section
/-! DEFINITION. Regs.lean: what every address of the register window reads as (chapter 16), and the domain it lies in. -/

namespace Sys2Proof.Machine

/-! ### Fields that several registers show -/

/-- Unread entries of R415: WRITE_SEQ - max(READ_SEQ, WRITE_SEQ - 32,768). -/
def logUnread (s : State) : Nat :=
  let w := s.log.writeSeq.toNat
  w - max s.log.readSeq.toNat (w - 32768)

/-- ATTN[3:0] (KX_BLOCK_STATUS): seal failure, fault, log threshold, freeze done; a power fault in D62 holds the last two low (R427). -/
def attn (s : State) : BitVec 4 :=
  (if s.step.seen = 0 then 0 else 1) ||| (if s.faults.pending = 0 then 0 else 2) |||
    (if !s.log.disabled && decide (s.log.threshold.toNat ≤ logUnread s) then 4 else 0) |||
    (if !s.log.disabled && s.freeze.held then 8 else 0)

/-- Code of a time state (R288). -/
def timeCode (s : State) : Nat :=
  match s.time.state with
  | .free => 0
  | .acquiring => 1
  | .locked => 2
  | .holdover => 3
  | .master => 4

/-- Code of a domain state. -/
def domCode (d : DState) : Nat :=
  match d with
  | .off => 0
  | .banked => 1
  | .warm => 2
  | .waking => 3

/-- UPSTREAM of KX_TIME_STATUS. -/
def upstreamCode (s : State) : Nat :=
  match s.time.upstream with
  | some (.port p, _) => p.val
  | some (.module u, _) => 0x20 + u.val
  | none => 0x3F

/-- The idle spare tiles: kindled as spares, not holding a position, not retired (R24, R387). -/
def idleSpares (s : State) : List Nat :=
  (List.range 576).filter (fun t => s.kindle.spares.getLsbD t && !s.faults.retired.getLsbD t &&
    !(s.faults.moved.any (fun p => p.2 == t)))

/-- The default of KX_STANDIN_POOL: INSTANCE 0xFF_FFFF and nothing else. -/
def poolInit : Word := 0x0001FFFFFE000000

/-- Number of set bits of an 8-bit mask. -/
def popcount8 (m : BitVec 8) : Nat := ((List.range 8).filter (fun i => m.getLsbD i)).length

/-- Buffers of the reserves (R190). -/
def reserveSize (s : State) : Nat :=
  let hall := match s.image with
    | some im => im.ports.any (fun p => p.mode == 3)
    | none => false
  128 + policy s (fun p => p.arrivalReserve) 64 + policy s (fun p => p.recoveryReserve) 130 + (if hall then 512 else 0)

/-- Hall mode is on (R190). -/
def hallMode (s : State) : Bool :=
  match s.image with
  | some im => im.ports.any (fun p => p.mode == 3)
  | none => false

/-- Working buffers: those of working banks that are not retired individually (R206). -/
def workingBuffers (s : State) : Nat :=
  384 * popcount8 s.kiln.bankWorking - (s.kiln.bufRetired.filter (fun b => s.kiln.bankWorking.getLsbD (b / 384))).length

/-- Claimable buffers (R190). -/
def claimable (s : State) : Nat := workingBuffers s - reserveSize s

/-- Buffers held by admitted claims (R195); the part of a claim drawn from the recovery reserve is not charged here (R202). -/
def claimed (s : State) : Nat :=
  (s.kiln.nodes.foldl (fun a n => if n.admitted then a + n.claim else a) 0 +
    s.kiln.passHolds.foldl (fun a p => if p.admitted && !p.closed then a + p.claim else a) 0) - s.kiln.recoveryUsed

/-- Claimable buffers not held by any claim. -/
def freeClaimable (s : State) : Nat := claimable s - claimed s

/-! ### Registers of D0 and D62 -/

/-- KX_KINDLE_STATUS. -/
def rKindleStatus (s : State) : Word :=
  putField 60 4 (kindleCode s) ||| putField 52 8 s.kindle.failCode.toNat ||| putField 48 4 s.kindle.failSection.toNat |||
    putField 32 16 s.kindle.failIndex.toNat ||| putField 24 8 s.kindle.count.toNat ||| bitAt 23 s.kindle.anchorLocked |||
    bitAt 22 s.params.hearthOnly ||| putField 17 5 s.kindle.durations.length

/-- KX_TIME_STATUS. -/
def rTimeStatus (s : State) : Word :=
  putField 60 4 (timeCode s) ||| bitAt 59 s.time.sysLocked ||| bitAt 58 s.time.subtreeLocked ||| putField 54 4 s.time.hops |||
    putField 48 6 (upstreamCode s) ||| putField 32 16 s.time.lockGen.toNat ||| putField 8 24 s.time.master.toNat

/-- KX_POWER_STATUS. -/
def rPowerStatus (s : State) : Word :=
  putField 60 4 (blockState s) ||| bitAt 59 s.power.pllW ||| bitAt 58 s.power.pllE ||| bitAt 57 s.power.bankPending |||
    bitAt 56 s.power.gapBanked ||| bitAt 55 s.power.eastWanted

/-- KX_DOMAIN_STATE[i]. -/
def rDomainState (s : State) (i : Nat) : Word :=
  (List.range 32).foldl (fun a k => a ||| putField (2 * k) 2 (domCode (domSt s (32 * i + k)))) 0

/-- KX_STEP_STATUS. -/
def rStepStatus (s : State) : Word :=
  putField 60 4 (stepCode s) ||| bitAt 59 s.step.stopPending ||| bitAt 58 s.step.short ||| putField 42 16 s.step.attempt.toNat

/-- KX_SEAL_STATUS. -/
def rSealStatus (s : State) : Word :=
  putField 60 4 s.step.lastOutcome.toNat ||| putField 52 8 s.step.replayRun.toNat ||| putField 36 16 s.step.lastFlags.toNat |||
    putField 0 3 s.step.seen.toNat

/-- This instance has opened a recovery hold that is open: its own splice or stand-in, or as coordinator one of its own (R383). -/
def ownsHold (s : State) : Bool := s.faults.hold.isSome || s.faults.holds.any (fun h => h.kind == .own || h.kind == .reform)

/-- KX_FAULT_STATUS. -/
def rFaultStatus (s : State) : Word :=
  let kindled := kindleCode s ≥ 2
  bitAt 63 s.faults.dieFailed ||| putField 58 5 s.faults.cause.toNat ||| bitAt 57 (ownsHold s) ||| bitAt 56 s.faults.paused |||
    bitAt 55 (isCoordinator s) ||| putField 53 2 (match s.faults.role with
      | .none => 0
      | .pool => 1
      | .restoring => 2
      | .holds => 3) |||
    putField 49 4 (if kindled then popcount8 s.kiln.unitWorking else 0) |||
    putField 45 4 (if kindled then popcount8 s.kiln.bankWorking else 0) |||
    putField 37 8 (idleSpares s).length ||| putField 29 8 (s.faults.splices.filter (fun p => bitOf p.2 63)).length |||
    putField 13 16 s.faults.standinIndex.toNat

/-- The identity, log and freeze registers at 0x0000-0x0FFF. -/
def readIdentity (s : State) (a : Nat) : Option Word :=
  let full := !s.params.hearthOnly
  if a = 0x0 then some 0x4C594B3403000303
  else if a = 0x8 then some (bitAt 63 s.params.hearthOnly ||| putField 56 4 (if full then s.params.rdLatency else 0) |||
    putField 46 10 (if full then 576 else 0) ||| putField 41 5 (if full then 16 else 0) ||| putField 36 5 18 ||| putField 33 3 6 |||
    putField 29 4 8 ||| putField 25 4 8)
  else if a = 0x10 then some (putField 60 4 (kindleCode s) ||| putField 56 4 (stepCode s) ||| putField 52 4 (blockState s) |||
    putField 48 4 (timeCode s) ||| bitAt 47 s.time.sysLocked ||| bitAt 46 s.faults.dieFailed ||| bitAt 45 s.freeze.held |||
    putField 41 4 (attn s).toNat)
  else if a = 0x18 then some (putField 48 16 s.rp.ignored.toNat ||| putField 32 16 s.rp.cold.toNat |||
    putField 16 16 s.rp.decodeErr.toNat)
  else if a = 0x20 then some (putField 62 2 s.rp.lastKind.toNat ||| putField 0 25 s.rp.lastOffset.toNat)
  else if a = 0x180 then
    let w := match s.image with
      | some im => im.weights
      | none => [8, 8, 6, 3, 1]
    some (putField 56 8 (w[0]?.getD 0) ||| putField 48 8 (w[1]?.getD 0) ||| putField 40 8 (w[2]?.getD 0) |||
      putField 32 8 (w[3]?.getD 0) ||| putField 24 8 (w[4]?.getD 0) ||| putField 16 8 (w.foldl (· + ·) 0) ||| putField 8 8 0x40)
  else if a = 0x188 then some (putField 62 2 s.power.stepW.toNat ||| putField 60 2 s.power.stepE.toNat ||| bitAt 59 s.power.eastClosed |||
    putField 51 8 (laneHoldBits s true) ||| putField 43 8 (laneHoldBits s false))
  else if a = 0x200 then some (putField 0 48 s.log.writeSeq.toNat)
  else if a = 0x208 then some (putField 0 48 s.log.readSeq.toNat)
  else if a = 0x210 then some (bitAt 63 s.log.stopMode ||| putField 60 3 s.log.fwdMinSev.toNat ||| putField 36 24 s.log.fwdTarget.toNat |||
    putField 20 16 s.log.threshold.toNat)
  else if a = 0x218 then some (putField 48 16 s.log.dropped.toNat ||| putField 32 16 s.log.overrun.toNat |||
    putField 16 16 s.log.fwdDropped.toNat ||| putField 0 16 s.log.fwdSent.toNat)
  else if a = 0x220 then some s.freeze.tickReg
  else if a = 0x228 then some (bitAt 60 s.freeze.trigEn ||| bitAt 59 s.freeze.trigSystem ||| putField 56 3 s.freeze.counterBase.toNat |||
    putField 40 16 s.freeze.trigEvent.toNat ||| putField 36 4 s.freeze.refuse.toNat)
  else if a = 0x230 then some (putField 48 16 s.freeze.freezeId.toNat ||| bitAt 47 s.freeze.held ||| bitAt 46 s.freeze.late |||
    putField 44 2 s.freeze.source.toNat ||| putField 0 32 s.freeze.lateTicks.toNat)
  else if a = 0x238 then some s.freeze.captureTime
  else if a = 0x240 then some (bitAt 63 s.inject.enable |||
    (List.range 24).foldl (fun w j => w ||| bitAt j (smGet Injector.init s.inject.units j).armed) 0)
  else if 0x400 ≤ a ∧ a < 0x438 then some (BitVec.ofNat 64 (smGet 0 s.ctr a))
  else none

/-- The kindle and image registers at 0x1000-0x1FFF. -/
def readKindle (s : State) (a : Nat) : Option Word :=
  if a = 0x1000 then some (rKindleStatus s)
  else if a = 0x1008 then some 0
  else if a = 0x1010 then some (putField 40 24 s.kindle.instanceId.toNat)
  else if a = 0x1018 then some (putField 0 32 s.kindle.imageBase.toNat)
  else if a = 0x1020 then some (putField 60 4 s.kindle.nvmCtrl.toNat)
  else if a = 0x1028 then some s.kindle.nvmInfo
  else if a = 0x1030 then some (match s.image with
    | some im => putField 48 16 im.formatVersion.toNat ||| putField 32 16 im.microcode.toNat ||| putField 0 32 im.sharedCrc.toNat
    | none => 0)
  else if a = 0x1038 then some (match s.image with
    | some im => putField 32 32 im.imageBytes.toNat ||| putField 0 32 im.buildTag.toNat
    | none => 0)
  else if 0x1040 ≤ a ∧ a < 0x1070 then some (smGet 0 s.kindle.anchor ((a - 0x1040) / 8))
  else if a = 0x1070 then some 0
  else if 0x1080 ≤ a ∧ a < 0x10C8 then some (smGet 0 s.kindle.disabled ((a - 0x1080) / 8))
  else none

/-- The time registers at 0x2000-0x2FFF. -/
def readTime (s : State) (a : Nat) : Option Word :=
  if a = 0x2000 then some s.time.tick
  else if a = 0x2008 then some (putField 32 32 s.time.latchFrac.toNat ||| putField 28 4 s.time.latchSub.toNat |||
    bitAt 27 s.time.latchValid)
  else if a = 0x2010 then some 0
  else if a = 0x2018 then some (rTimeStatus s)
  else if a = 0x2020 then some (putField 32 32 (int32 s.time.offsetPs).toNat ||| putField 0 32 (int32 s.time.delayPs).toNat)
  else if a = 0x2028 then some (putField 32 32 (int32 s.time.ratePpb).toNat ||| putField 0 32 s.time.samples.toNat)
  else if a = 0x2030 then some s.time.launchTick
  else if a = 0x2038 then some (putField 48 16 s.time.launchGen.toNat ||| putField 44 4 s.time.refuse.toNat)
  else if a = 0x2040 then some (putField 32 32 s.time.lastDuration.toNat ||| putField 16 16 s.time.exceptions.toNat)
  else none

/-- The power registers at 0x3000-0x3FFF. -/
def readPower (s : State) (a : Nat) : Option Word :=
  if a = 0x3000 then some (rPowerStatus s)
  else if a = 0x3008 then some (putField 32 16 s.power.coolIdle.toNat ||| putField 16 16 s.power.openLead.toNat)
  else if a = 0x3010 then some (rDomainState s 0)
  else if a = 0x3018 then some (rDomainState s 1)
  else if a = 0x3020 then some (putField 48 16 s.power.coldPathWaits.toNat ||| putField 32 16 s.power.demandWakes.toNat |||
    putField 16 16 s.power.throttleChanges.toNat ||| putField 0 16 s.power.grantLate.toNat)
  else none

/-- The seal and fault registers at 0x4000-0xFFFF. -/
def readSeal (s : State) (a : Nat) : Option Word :=
  if a = 0x4000 then some (rStepStatus s)
  else if a = 0x4008 then some 0
  else if a = 0x4010 then some (putField 16 48 s.step.number.toNat)
  else if a = 0x4018 then some s.step.seedLo
  else if a = 0x4020 then some s.step.seedHi
  else if a = 0x4028 then some (rSealStatus s)
  else if a = 0x4030 then some (putField 32 32 s.step.lastUnclean.toNat ||| putField 0 32 s.step.lastFirstNf.toNat)
  else if a = 0x4038 then some s.step.lastDigest
  else if a = 0x4040 then some (putField 48 16 s.step.nSealed.toNat ||| putField 32 16 s.step.nSkipped.toNat |||
    putField 16 16 s.step.nReplayed.toNat ||| putField 0 16 s.step.nEarly.toNat)
  else if a = 0x4100 then some (rFaultStatus s)
  else if a = 0x4108 then some (putField 0 8 s.faults.pending.toNat)
  else if a = 0x4110 then some (putField 51 10 s.faults.spliceTile.toNat ||| putField 35 16 s.faults.recoveryLimit.toNat)
  else if 0x4200 ≤ a ∧ a < 0x4400 then some (smGet poolInit s.faults.pool ((a - 0x4200) / 8))
  else if 0x4400 ≤ a ∧ a < 0x4800 then
    some (if s.params.hearthOnly then 0 else smGet 0 s.faults.splices ((a - 0x4400) / 8))
  else none

/-! ### Ports, modules, kiln, injectors -/

/-- Code of a port state (KX_PORT_STATUS). -/
def portStateCode (l : LState) : Nat :=
  match l with
  | .down => 0
  | .training => 1
  | .up => 2
  | .degrading => 3
  | .retraining => 4
  | .failed => 5
  | .disabled => 0

/-- KX_PORT_STATUS[p]. -/
def rPortStatus (s : State) (p : Nat) : Word :=
  let l := linkAt s p
  let mode := ((portCfg s p).map (fun c => c.mode)).getD 0
  putField 60 4 mode ||| putField 58 2 l.rate.toNat ||| putField 56 2 l.width.toNat ||| putField 48 8 l.lanesGood.toNat |||
    putField 45 3 (if mode = 0 then 0 else linkLevel s p) ||| putField 42 3 l.role.toNat ||| putField 37 5 l.standsFor.toNat |||
    putField 33 4 (portStateCode l.state) ||| putField 8 24 l.peerInst.toNat ||| putField 0 8 l.peerPort.toNat

/-- Code of a module state (KX_MODULE_STATUS). -/
def moduleStateCode (l : LState) : Nat :=
  match l with
  | .down => 0
  | .training => 1
  | .up => 2
  | .degrading => 2
  | .retraining => 1
  | .failed => 3
  | .disabled => 4

/-- KX_MODULE_STATUS[u]. -/
def rModuleStatus (s : State) (u : Nat) : Word :=
  let l := linkAt s (18 + u)
  putField 60 4 (moduleStateCode l.state) ||| bitAt 59 l.version ||| putField 53 6 l.rateGts.toNat ||| bitAt 52 l.relaying |||
    putField 25 24 l.peerInst.toNat ||| putField 22 3 l.peerPort.toNat

/-- KX_PORT_DEPTHS and KX_MODULE_DEPTHS. -/
def rDepths (l : LinkSt) : Word :=
  putField 56 8 (l.depths[0]?.getD 0) ||| putField 48 8 (l.depths[1]?.getD 0) ||| putField 40 8 (l.depths[2]?.getD 0) |||
    putField 32 8 (l.depths[3]?.getD 0) ||| putField 24 8 (l.depths[4]?.getD 0)

/-- LEAST_DELAY_PS of a link: the least of its last 64 delays (R284). -/
def leastDelay (s : State) (k : Nat) : Word :=
  match (s.time.exch.filter (fun x => linkNo x.link == k)).flatMap (fun x => x.delays) with
  | [] => 0
  | d :: ds => putField 0 32 (int32 (ds.foldl min d)).toNat

/-- The flow view of R437: counter `n` of the selected flow. -/
def flowView (s : State) (p n : Nat) : Word :=
  let l := linkAt s p
  let sel := l.flowSel.toNat
  if !isEth s p then 0
  else if sel < 64 then BitVec.ofNat 64 (smGet 0 (smGet Flow.init l.flows sel).ctr n)
  else if sel = 64 ∧ 6 ≤ n then BitVec.ofNat 64 (smGet 0 l.strayCtr n)
  else 0

/-- KX_FLOW_STATUS[f]. -/
def rFlowStatus (s : State) (p f : Nat) : Word :=
  if !isEth s p then 0
  else
    let fl := flowAt s p f
    let held := (fl.heldUnits.filter (fun h => h.seq != fl.rxAck)).length
    putField 62 2 fl.state ||| putField 54 8 fl.units.length ||| putField 45 9 held |||
      (if fl.state = 0 then 0 else putField 0 32 fl.rxAck.toNat)

/-- Offsets of a link window that hold per-VC counters. -/
def vcCounterOff (o : Nat) : Bool :=
  decide (0x40 ≤ o) && decide (o < 0x40 + 0x18 * 5)

/-- A port window (Table: Port window). -/
def readPort (s : State) (p o : Nat) : Option Word :=
  let cell := some (BitVec.ofNat 64 (smGet 0 s.ctr (linkBase p + o)))
  if o = 0 then some (rPortStatus s p)
  else if o = 8 then some 0
  else if o = 0x10 then some (putField 0 7 (linkAt s p).flowSel.toNat)
  else if o = 0x18 then some (rDepths (linkAt s p))
  else if vcCounterOff o then cell
  else if 0xC0 ≤ o ∧ o ≤ 0x110 then cell
  else if 0x120 ≤ o ∧ o ≤ 0x148 then cell
  else if o = 0x150 then some (leastDelay s p)
  else if 0x180 ≤ o ∧ o ≤ 0x1D0 then some (flowView s p ((o - 0x180) / 8))
  else if 0x200 ≤ o ∧ o < 0x400 then some (rFlowStatus s p ((o - 0x200) / 8))
  else none

/-- A module window. -/
def readModule (s : State) (u o : Nat) : Option Word :=
  let cell := some (BitVec.ofNat 64 (smGet 0 s.ctr (linkBase (18 + u) + o)))
  if o = 0 then some (rModuleStatus s u)
  else if o = 0x18 then some (rDepths (linkAt s (18 + u)))
  else if vcCounterOff o then cell
  else if 0xC0 ≤ o ∧ o ≤ 0xD8 then cell
  else if 0x120 ≤ o ∧ o ≤ 0x148 then cell
  else if o = 0x150 then some (leastDelay s (18 + u))
  else none

/-- KX_KMEM_STATUS. -/
def rKmemStatus (s : State) : Word :=
  putField 56 8 s.kiln.bankWorking.toNat ||| putField 48 8 s.kiln.bankWarn.toNat |||
    putField 36 12 (if s.image.isSome then freeClaimable s else 0) |||
    putField 24 12 ((s.kiln.waiting.head?.map Prod.fst).getD 0) ||| bitAt 23 (!s.kiln.waiting.isEmpty) ||| bitAt 22 s.step.short |||
    bitAt 21 (hallMode s) ||| putField 12 9 (min s.kiln.bufRetired.length 511)

/-- The kiln region at 0x30000-0x3FFFF. -/
def readKiln (s : State) (a : Nat) : Option Word :=
  let cell := some (BitVec.ofNat 64 (smGet 0 s.ctr a))
  if a = 0x30000 then some (putField 56 8 s.kiln.unitWorking.toNat ||| putField 48 8 s.kiln.unitWarn.toNat |||
    putField 40 8 s.kiln.unitPredicted.toNat)
  else if 0x30100 ≤ a ∧ a < 0x30300 then (if a % 0x40 < 0x18 then cell else none)
  else if 0x30400 ≤ a ∧ a < 0x30600 then (if a % 0x40 < 0x20 then cell else none)
  else if a = 0x30800 then some (rKmemStatus s)
  else if 0x30810 ≤ a ∧ a ≤ 0x30820 then cell
  else if 0x38000 ≤ a ∧ a < 0x38C40 then cell
  else none

/-- The injector registers at 0x50000. -/
def readInject (s : State) (j o : Nat) : Option Word :=
  let u := smGet Injector.init s.inject.units j
  if o = 0 then some u.ctrl
  else if o = 8 then some u.matchReg
  else if o = 0x10 then some u.param
  else if o = 0x18 then some u.seed
  else if o = 0x20 then some (bitAt 63 u.armed ||| putField 16 32 u.matched.toNat ||| putField 0 16 u.injected.toNat)
  else none

/-! ### Log, tally, tables -/

/-- A slot of the ash log. -/
def logSlot (s : State) (i : Nat) : LogEntry := smGet { e0 := 0, e1 := 0, e2 := 0, e3 := 0 } s.log.entries i

/-- Word `w` of log entry `i`. -/
def readLog (s : State) (i w : Nat) : Word :=
  let e := logSlot s i
  if logTested s then Config.freeCell s.free (1000 + 4 * i + w)
  else if w = 0 then e.e0 else if w = 1 then e.e1 else if w = 2 then e.e2 else e.e3

/-- HIGH_CONTIG of R407: how many cords from the first are landed without a gap, less 1. -/
def contig (landed : List Nat) (c : Nat) : Nat → Nat
  | 0 => 0
  | n + 1 => if landed.contains c then 1 + contig landed (c + 1) n else 0

/-- The words T0-T3 of a tally record (R439); a slot that was not loaded is UNUSED with zeros. -/
def tallyWords (l : List Tally) (e : Nat) : Word × Word × Word × Word :=
  match l.find? (fun t => t.slot == e) with
  | none => (0, 0, 0, 0)
  | some t =>
    let run := contig t.landed t.first t.landed.length
    (putField 16 48 t.step.toNat ||| putField 0 16 t.attempt.toNat,
     putField 52 12 t.plan ||| putField 48 4 t.status.toNat ||| bitAt 47 (decide (0 < run)) ||| putField 30 17 t.expected |||
       putField 13 17 t.landed.length,
     putField 48 16 t.first ||| putField 32 16 (if run = 0 then 0xFFFF else t.first + run - 1) ||| putField 0 32 t.dups.toNat,
     t.lastTick)

/-- The tally words of a record: tile, attempt slot, landing entry. -/
def tallyOf (s : State) (t a e : Nat) : Word × Word × Word × Word :=
  tallyWords (if a = 0 then (leafAt s t).tally else (leafAt s t).tallyPrev) e

/-- The number of a tally record, as the shadow keeps it. -/
def tallyKey (t a e : Nat) : Nat := (t * 2 + a) * 64 + e + 1

/-- A segment's shadow; key 0 for none latched. -/
def shadowOf (s : State) (g : Nat) : Shadow := smGet { key := 0, t1 := 0, t2 := 0, t3 := 0 } s.shadows g

/-- A word of a tally record as the port reads it: T1-T3 of the latched record come from the shadow (R440). -/
def readTally (s : State) (t a e w : Nat) : Word :=
  let v := tallyOf s t a e
  let sh := shadowOf s (segOf t)
  let held := sh.key == tallyKey t a e
  if w = 0 then v.1
  else if w = 1 then (if held then sh.t1 else v.2.1)
  else if w = 2 then (if held then sh.t2 else v.2.2.1)
  else (if held then sh.t3 else v.2.2.2)

/-- The digest table (R441). -/
def readDigest (s : State) (a i : Nat) : Word :=
  let p := smGet (0, 0) (if a = 0 then s.step.digestCur else s.step.digestPrev) i
  putField 32 32 p.1.toNat ||| putField 0 32 p.2.toNat

/-- KX_GROUP_STATUS[g]. -/
def rGroupStatus (s : State) (g : Nat) : Word :=
  match groupNow s g with
  | none => putField 24 16 0xFFFF ||| putField 0 24 0xFFFFFF
  | some gd =>
    let m := (myDie s).bind (fun d => memberIdx gd d)
    bitAt 63 true ||| putField 60 3 gd.topLevel ||| bitAt 56 m.isSome ||| putField 40 16 (gd.members.length - 1) |||
      putField 24 16 (m.getD 0xFFFF) ||| putField 0 24 (rootInst s g)

/-- KX_GROUP_DOMAIN[g]. -/
def rGroupDomain (s : State) (g : Nat) : Word :=
  let p := smGet (0, 0) s.tables.domains g
  putField 48 16 p.1.toNat ||| putField 0 48 p.2.toNat

/-- The tally region at 0x200000. -/
def readTallyRegion (s : State) (a : Nat) : Option Word :=
  if a < 0x440000 then
    let o := a - 0x200000
    some (if s.params.hearthOnly then 0 else readTally s (o / 4096) (o / 2048 % 2) (o / 32 % 64) (o / 8 % 4))
  else if a < 0x450000 then
    some (readDigest s ((a - 0x440000) / 0x8000) ((a - 0x440000) % 0x8000 / 8))
  else if 0x460000 ≤ a ∧ a < 0x460400 then
    (if a % 0x40 < 0x38 then some (if s.params.hearthOnly then 0 else BitVec.ofNat 64 (smGet 0 s.ctr a)) else none)
  else none

/-- The group and member tables at 0x1000000. -/
def readTables (s : State) (a : Nat) : Option Word :=
  if a < 0x1080000 then some (memberWord s ((a - 0x1000000) / 8))
  else if a < 0x1080800 then some (putField 48 16 (epochOf s ((a - 0x1080000) / 8)))
  else if a < 0x1081000 then some (rGroupStatus s ((a - 0x1080800) / 8))
  else if a < 0x1081800 then some (rGroupDomain s ((a - 0x1081000) / 8))
  else none

/-- Offsets of the snapshot records (Table: Snapshot records). -/
def snapAddr (a : Nat) : Bool :=
  (decide (0x40100 ≤ a) && decide (a < 0x40FC0)) || (decide (0x41000 ≤ a) && decide (a < 0x4A000))

/-! ### Counters and their mirrors (R435, R436) -/

/-- The offset of a counter, or of a time-exchange word, whose copy the mirror holds. -/
def mirrored (a : Nat) : Bool :=
  (decide (0x400 ≤ a) && decide (a < 0x438)) ||
  (decide (0x10000 ≤ a) && decide (a < 0x14800) && (let o := a % 0x400
    vcCounterOff o || (decide (0xC0 ≤ o) && decide (o ≤ 0x110)) || (decide (0x120 ≤ o) && decide (o ≤ 0x150)) ||
      (decide (0x180 ≤ o) && decide (o ≤ 0x1D0)))) ||
  (decide (0x20000 ≤ a) && decide (a < 0x21800) && (let o := a % 0x400
    vcCounterOff o || (decide (0xC0 ≤ o) && decide (o ≤ 0xD8)) || (decide (0x120 ≤ o) && decide (o ≤ 0x150)))) ||
  (decide (0x30100 ≤ a) && decide (a < 0x30300) && decide (a % 0x40 < 0x18)) ||
  (decide (0x30400 ≤ a) && decide (a < 0x30600) && decide (a % 0x40 < 0x20)) ||
  (decide (0x30810 ≤ a) && decide (a ≤ 0x30820)) ||
  (decide (0x38000 ≤ a) && decide (a < 0x38C40)) ||
  (decide (0x460000 ≤ a) && decide (a < 0x460400) && decide (a % 0x40 < 0x38))

/-- The counter offset that an address of the capture mirror copies. -/
def mirrorOf (a : Nat) : Option Nat :=
  let o := a - 0x800000
  if 0x60000 ≤ o ∧ o < 0x60400 then (if mirrored (o + 0x400000) then some (o + 0x400000) else none)
  else if mirrored o then some o else none

/-- A word of the capture mirror. The flow view's mirror shows the selected flow's copies (R437), which the capture keeps by flow. -/
def readMirror (s : State) (a : Nat) : Option Word :=
  match mirrorOf a with
  | none => none
  | some o =>
    if 0x10000 ≤ o ∧ o < 0x14800 ∧ 0x180 ≤ o % 0x400 then
      let p := (o - 0x10000) / 0x400
      let sel := (linkAt s p).flowSel.toNat
      some (if 64 < sel then 0 else smGet 0 s.freeze.captured (0x2000000 + ((p * 65 + sel) * 16 + (o % 0x400 - 0x180) / 8)))
    else some (smGet 0 s.freeze.captured a)

/-! ### The window (R428) -/

/-- The domain whose state governs an address outside D0, D62 and D63 (R339, Table: Window regions). -/
def regDomain (a : Nat) : Option Nat :=
  let dom (b : Nat) : Option Nat :=
    if 0x10000 ≤ b ∧ b < 0x14800 then some (33 + (b - 0x10000) / 0x400)
    else if 0x20000 ≤ b ∧ b < 0x21800 then some (51 + (b - 0x20000) / 0x400)
    else if 0x30100 ≤ b ∧ b < 0x30300 then some (17 + (b - 0x30100) / 0x40)
    else if 0x30400 ≤ b ∧ b < 0x30600 then some (25 + (b - 0x30400) / 0x40)
    else if 0x38000 ≤ b ∧ b < 0x38C40 then
      let u := unitAt ((b - 0x38000) / 0x40)
      if u ≤ 0x11 then some (33 + u) else if 0x20 ≤ u ∧ u ≤ 0x25 then some (51 + (u - 0x20))
      else if 0x30 ≤ u ∧ u ≤ 0x37 then some (17 + (u - 0x30)) else if 0x40 ≤ u ∧ u ≤ 0x4F then some (1 + (u - 0x40)) else some 58
    else if 0x460000 ≤ b ∧ b < 0x460400 then some (1 + (b - 0x460000) / 0x40)
    else none
  if 0x800000 ≤ a ∧ a < 0x900000 then (mirrorOf a).bind dom
  else if 0x40100 ≤ a ∧ a < 0x40500 then some (1 + (a - 0x40100) / 64)
  else if 0x40500 ≤ a ∧ a < 0x40700 then some (17 + (a - 0x40500) / 64)
  else if 0x40700 ≤ a ∧ a < 0x40900 then some (25 + (a - 0x40700) / 64)
  else if 0x40900 ≤ a ∧ a < 0x40D80 then some (33 + (a - 0x40900) / 64)
  else if 0x40D80 ≤ a ∧ a < 0x40F00 then some (51 + (a - 0x40D80) / 64)
  else if 0x40F00 ≤ a ∧ a < 0x40FC0 then some (57 + (a - 0x40F00) / 64)
  else if 0x41000 ≤ a ∧ a < 0x4A000 then some (1 + (a - 0x41000) / 64 / 36)
  else if 0x50000 ≤ a ∧ a < 0x50600 then some (let j := (a - 0x50000) / 0x40; if j < 18 then 33 + j else 51 + (j - 18))
  else if 0x200000 ≤ a ∧ a < 0x440000 then some (1 + (a - 0x200000) / 4096 / 36)
  else if 0x440000 ≤ a ∧ a < 0x450000 then some 57
  else if 0x1000000 ≤ a ∧ a < 0x1081800 then some 63
  else dom a

/-- Parts of the window that a hearth-only instance has no units for: they read 0 without RP_ERR, and a write is ignored and counted
(R429, Table: Window regions). -/
def hearthHole (s : State) (a : Nat) : Bool :=
  s.params.hearthOnly &&
    ((decide (0x4400 ≤ a) && decide (a < 0x4800)) ||
     (decide (0x38000 ≤ a) && decide (a < 0x38C40) && decide (0x40 ≤ unitAt ((a - 0x38000) / 0x40)) &&
        decide (unitAt ((a - 0x38000) / 0x40) ≤ 0x4F)) ||
     (decide (0x40100 ≤ a) && decide (a < 0x40500)) || (decide (0x41000 ≤ a) && decide (a < 0x4A000)) ||
     (decide (0x200000 ≤ a) && decide (a < 0x440000)) || (decide (0x460000 ≤ a) && decide (a < 0x460400)) ||
     (decide (0x860000 ≤ a) && decide (a < 0x860400)) ||
     (decide (0x838000 ≤ a) && decide (a < 0x838C40) && decide (0x40 ≤ unitAt ((a - 0x838000) / 0x40)) &&
        decide (unitAt ((a - 0x838000) / 0x40) ≤ 0x4F)))

/-- The register at a byte address, its domain aside; none where no register lies (R428, R429). -/
def regAt (s : State) (a : Nat) : Option Word :=
  if a % 8 ≠ 0 then none
  else if a < 0x1000 then readIdentity s a
  else if a < 0x2000 then readKindle s a
  else if a < 0x3000 then readTime s a
  else if a < 0x4000 then readPower s a
  else if a < 0x10000 then readSeal s a
  else if a < 0x14800 then readPort s ((a - 0x10000) / 0x400) (a % 0x400)
  else if 0x20000 ≤ a ∧ a < 0x21800 then readModule s ((a - 0x20000) / 0x400) (a % 0x400)
  else if 0x30000 ≤ a ∧ a < 0x40000 then readKiln s a
  else if 0x40000 ≤ a ∧ a < 0x50000 then (if snapAddr a then some (smGet 0 s.freeze.captured a) else none)
  else if 0x50000 ≤ a ∧ a < 0x50600 then readInject s ((a - 0x50000) / 0x40) (a % 0x40)
  else if 0x100000 ≤ a ∧ a < 0x200000 then some (readLog s ((a - 0x100000) / 32) (a / 8 % 4))
  else if 0x200000 ≤ a ∧ a < 0x600000 then readTallyRegion s a
  else if 0x800000 ≤ a ∧ a < 0x900000 then readMirror s a
  else if 0x1000000 ≤ a ∧ a < 0x1081800 then readTables s a
  else none

/-- The domain of an address is WARM, or it needs none. DESIGN CHOICE, SAFE (log 78): the registers of the kiln region that belong to no one
unit or bank are there while any of D17 to D32 is WARM. -/
def regWarm (s : State) (a : Nat) : Bool :=
  if a = 0x30000 ∨ (0x30800 ≤ a ∧ a ≤ 0x30820) ∨ (0x830800 ≤ a ∧ a ≤ 0x830820) then (List.range 16).any (fun i => warm s (17 + i))
  else match regDomain a with
  | some d => warm s d
  | none => true

/-- A register as the port reads it: 0 while its domain is not WARM and in the holes of a hearth-only instance (R339, R429). -/
def readReg (s : State) (a : Nat) : Word :=
  if hearthHole s a then 0 else if regWarm s a then (regAt s a).getD 0 else 0

end Sys2Proof.Machine
end

