-- ==== Sys2Proof/Machine/Plan.lean ====
section
/-! DEFINITION. Plan.lean: which leaf entries a position loads (R171 to R173), which nodes and children an entry has at this instance
(R177, R192), its claims, and the domains it uses (R345, R346). -/

namespace Sys2Proof.Machine

/-! ### Leaf sets -/

/-- The leaf set that a logical tile index loads (R172). -/
def leafSetOf (s : State) (i : Nat) : Option LeafSet :=
  match s.image with
  | none => none
  | some im =>
    let k := (im.tileMap[i]?).getD 0xFF
    if k = 0xFF then none else im.leafSets[k]?

/-- A MIRROR entry runs at a die: its twin is not removed (R399). -/
def mirrorRuns (s : State) (e : PlanEntry) (die : Nat) : Bool :=
  fieldOf (memberWord s (die ^^^ eArg e)) 62 2 != 2

/-- A logical tile of this die feeds an entry in the step (R96 to R110, R173). -/
def feedsNow (s : State) (e : PlanEntry) (i : Nat) : Bool :=
  match entryGroup s e, myDie s with
  | some g, some d => tileFeeds e (argNow s e) g d s.kindle.logical i && (eKind e != 8 || mirrorRuns s e d)
  | _, _ => false

/-- A logical tile of this die has landing content for an entry (R112). -/
def landsNow (s : State) (e : PlanEntry) (i : Nat) : Bool :=
  match entryGroup s e, myDie s with
  | some g, some d => tileLands e (argNow s e) (tgtNow s e) g d s.kindle.logical i && (eKind e != 8 || mirrorRuns s e d)
  | _, _ => false

/-- The position index of a logical tile of this die in an entry's group. -/
def positionNow (s : State) (e : PlanEntry) (i : Nat) : Option Nat :=
  match entryGroup s e, myDie s with
  | some g, some d => posIndex g d s.kindle.logical i
  | _, _ => none

/-- P of an entry's group. -/
def posNow (s : State) (e : PlanEntry) : Nat :=
  match entryGroup s e with
  | some g => posCount g
  | none => 0

/-- A trigger entry that a position loads in the step (R173). -/
def loadsTrigger (s : State) (step i : Nat) (w : Word × Word) : Bool :=
  (w.1 != 0 || w.2 != 0) && match entryAt s (trPlan w.1) with
    | some e => eOpActive e step && feedsNow s e i
    | none => false

/-- A landing entry that a position loads in the step (R173). -/
def loadsLanding (s : State) (step i : Nat) (w : Word × Word) : Bool :=
  leValid w.1 && match entryAt s (lePlan w.1) with
    | some e => eOpActive e step && landsNow s e i
    | none => false

/-- A position loads a trigger or landing entry in a step; with `plan`, one that names that entry. -/
def loadsIn (s : State) (step i : Nat) (plan : Option Nat) : Bool :=
  match leafSetOf s i with
  | none => false
  | some ls =>
    let ok := fun (p : Nat) => match plan with
      | some q => p == q
      | none => true
    ls.triggers.any (fun w => ok (trPlan w.1) && loadsTrigger s step i w) ||
      ls.landings.any (fun w => ok (lePlan w.1) && loadsLanding s step i w)

/-- The logical tile indices of this die. -/
def logicalIdx (s : State) : List Nat := List.range s.kindle.logical.length

/-- The segments whose tiles load entries in a step (for one plan entry, or any): by the tile that holds the position now. -/
def segsLoading (s : State) (step : Nat) (plan : Option Nat) : List Nat :=
  sortedSet ((logicalIdx s).filterMap (fun i =>
    if loadsIn s step i plan then (physOf s i).map segOf else none))

/-! ### Nodes and children of an entry at this instance -/

/-- The kinds that use the tree: 0 to 6 (R90). -/
def usesTree (e : PlanEntry) : Bool := decide (eKind e ≤ 6)

/-- The logical tiles of a segment node that feed an entry, in ascending logical index (R37). -/
def segFeeders (s : State) (e : PlanEntry) (seg : Nat) : List Nat :=
  (logicalIdx s).filter (fun i => segOfLogical s i == seg && feedsNow s e i)

/-- The segments of this die that feed an entry, ascending. -/
def dieFeeders (s : State) (e : PlanEntry) : List Nat :=
  sortedSet ((logicalIdx s).filterMap (fun i => if feedsNow s e i then some (segOfLogical s i) else none))

/-- The children of a node that carry the entry: tiles, segments, or coordinates of the level below (R192). -/
def nodeChildren (s : State) (e : PlanEntry) (g : GroupDef) (n : NodeId) : List Nat :=
  if n.stage.val = 0 then segFeeders s e n.seg.val
  else if n.stage.val = 1 then dieFeeders s e
  else carryingChildren e (argNow s e) g (n.stage.val - 1) n.coord.toNat

/-- A logical tile feeds cord `c`: a GATHER's data and count cords come from chosen positions only (R101, R103). -/
def tileFeedsCord (s : State) (e : PlanEntry) (i c : Nat) : Bool :=
  feedsNow s e i && (if eKind e = 4 then
    (match positionNow s e i with
      | none => false
      | some k =>
        let d := posNow s e * eQ e
        if c < d then c / eQ e == k
        else if c < d + ceilDiv (posNow s e) 128 then k / 128 == c - d
        else true)
    else true)

/-- The children that carry cord `c` at a node. -/
def cordChildren (s : State) (e : PlanEntry) (g : GroupDef) (n : NodeId) (c : Nat) : List Nat :=
  if n.stage.val = 0 then (segFeeders s e n.seg.val).filter (fun i => tileFeedsCord s e i c)
  else if n.stage.val = 1 then
    sortedSet ((logicalIdx s).filterMap (fun i => if tileFeedsCord s e i c then some (segOfLogical s i) else none))
  else (childrenOf g (n.stage.val - 1) n.coord.toNat).filter (fun k => childFeeds e (argNow s e) g (n.stage.val - 2) k c)

/-- The node is the root of its group's tree. -/
def isRootNode (g : GroupDef) (n : NodeId) : Bool := decide (n.stage.val = g.topLevel + 1)

/-- The claim of a node instance (Table: Claims by node). -/
def claimOf (g : GroupDef) (n : NodeId) (kids win : Nat) : Nat :=
  if n.stage.val = 0 then 0
  else if 2 ≤ kids then win * (kids + 1)
  else if isRootNode g n then win
  else if n.stage.val = 1 then win
  else 0

/-- W of an entry: min(BUF_WINDOW, C) (R191). -/
def effWindow (s : State) (e : PlanEntry) : Nat := min (eWindow e) (cordsNow s e)

/-- A fresh node instance of an entry. -/
def mkNode (s : State) (e : PlanEntry) (g : GroupDef) (n : NodeId) : NodeInst :=
  let kids := max 1 (nodeChildren s e g n).length
  let w := effWindow s e
  { plan := eIdx e, node := n, n := kids, win := w, claim := claimOf g n kids w, cords := cordsNow s e,
    admitted := decide (n.stage.val = 0), lowest := 0, opens := [], closed := [], copied := [], copyWait := [], results := [], fromRecovery := 0,
        notices := [], noticeSent := false,
    armSent := false, skewWarned := false, maxSkew := 0, parentLowest := [], partials := [], leadLogged := false }

/-- The node instances of an entry at this instance: its segment nodes, its L0 die node, and the nodes of its working lists (R177). -/
def nodesFor (s : State) (e : PlanEntry) : List NodeInst :=
  if !usesTree e then []
  else match entryGroup s e with
    | none => []
    | some g =>
      let segs := match myDie s with
        | some d => if (memberIdx g d).isSome then (dieFeeders s e).map (segNode d) else []
        | none => []
      (segs ++ (myNodes s g).map (fun p => nodeId p.1 p.2)).map (mkNode s e g)

/-- The PASS hold of an entry at its target die: W times the landing positions, where a landing entry has a permit (R192). -/
def passHoldFor (s : State) (e : PlanEntry) : List PassHold :=
  if eKind e ≠ 7 then []
  else
    let ls := (logicalIdx s).filter (fun i => landsNow s e i)
    let permit := ls.any (fun i => match leafSetOf s i with
      | some st => st.landings.any (fun w => leValid w.1 && lePlan w.1 == eIdx e && lePermitEn w.1)
      | none => false)
    if permit then [{ plan := eIdx e, claim := effWindow s e * ls.length, admitted := false, closed := false }] else []

/-- The claims in buffers of the entries active in a step at this instance (R199). -/
def claimsOfStep (s : State) (step : Nat) : Nat :=
  ((planEntries s).filter (fun e => eOpActive e step)).foldl (fun a e =>
    a + (nodesFor s e).foldl (fun b n => b + n.claim) 0 + (passHoldFor s e).foldl (fun b p => b + p.claim) 0) 0

/-- Claimable buffers once every bank and buffer due at the coming boundary counts as retired (R199). -/
def claimableNext (s : State) : Nat :=
  let w := (List.range 8).foldl (fun (m : BitVec 8) b =>
    if smGet 0 s.kiln.bankDue b ≠ 0 then m &&& ~~~(BitVec.ofNat 8 (2 ^ b)) else m) s.kiln.bankWorking
  claimable { s with kiln := { s.kiln with bankWorking := w } }

/-- SHORT as an instance reports it: the claims of the step that would come next exceed its claimable buffers (R199). -/
def reportsShort (s : State) : Bool := decide (claimableNext s < claimsOfStep s (stepNo s + 1))

/-! ### Domains of an entry (R345, R346) -/

/-- The domains of the working kiln units and their home banks. -/
def kilnDoms (s : State) : List Nat := (kilnsWorking s).flatMap (fun k => [17 + k, 25 + k])

/-- The instance computes an L0 die node or an L1-L4 node for an entry. -/
def computesNode (s : State) (e : PlanEntry) : Bool :=
  usesTree e && match entryGroup s e with
    | some g => !(myNodes s g).isEmpty
    | none => false

/-- This instance is the root placement of an entry's group. -/
def rootsEntry (s : State) (e : PlanEntry) : Bool := usesTree e && isRoot s (eGroup e)

/-- The domains that a plan pre-heat of an OPERATION entry wakes here (R345). -/
def preheatDoms (s : State) (e : PlanEntry) : List Nat :=
  let base := (segsLoading s (stepNo s) (some (eIdx e))).map (· + 1) ++
    (if computesNode s e then kilnDoms s else []) ++ (if rootsEntry s e then [58] else [])
  if base.any eastDom then base ++ [59] else base

/-- The domains that a counter pre-heat of an entry wakes (R345): the kiln unit that R12 assigns to the entry's next cord and that unit's home
bank, where the entry's cords are combined here; D58 at the root placement; D59 where the leaf and that unit lie on different halves. -/
def counterDoms (s : State) (e : PlanEntry) (seg next : Nat) : List Nat :=
  let unit := if computesNode s e then kilnFor s next else none
  (match unit with
    | some k => [17 + k, 25 + k] ++ (if eastDom (17 + k) != eastDom (seg + 1) then [59] else [])
    | none => []) ++ (if rootsEntry s e then [58] else [])

/-- The domains named for a step open (R346): D57, D59 and the segment domains whose tiles load entries. -/
def openDoms (s : State) : List Nat := [57, 59] ++ (segsLoading s (stepNo s) none).map (· + 1)

/-- A set of domains as a mask. -/
def domMask (l : List Nat) : BitVec 64 := l.foldl (fun m d => m ||| BitVec.ofNat 64 (2 ^ d)) 0

/-- The domains of a mask. -/
def maskDoms (m : BitVec 64) : List Nat := (List.range 64).filter (fun d => m.getLsbD d)

end Sys2Proof.Machine
end

