-- ==== Sys2Proof/Machine/Recover.lean ====
section
/-! DEFINITION. Recover.lean: the operations that several families share when a part fails: flooded changes (R381), die failure (R379),
retirement of units, banks and buffers (R86, R205, R206), ECC (R203), splices (R387), links that fail (R246), and cord buffers (R188). -/

namespace Sys2Proof.Machine

/-! ### Flooded changes (R381) -/

/-- The coordinator as this instance knows it: the root placement of SEAL_GROUP. -/
def coordinator (s : State) : Nat := rootInst s (sealGroup s)

/-- The working placements of the children of a group's root, ascending, without a failed root (R397). -/
def fallbackRoots (s : State) (g : GroupDef) (old : Nat) : List Nat :=
  (sortedSet ((childrenOf g g.topLevel (rootCoord g)).flatMap (fun k =>
    if g.topLevel = 1 then [holderOf s k] else placesOf s g.num (g.topLevel - 1) k))).filter (· != old)

/-- A link of this instance is configured to an instance: a port, one of its hall flows, or a module. -/
def linkedTo (s : State) (inst : Nat) : Bool :=
  match s.image with
  | some im => im.ports.any (fun c => c.peerInst == inst || c.peers.any (fun p => p.inst == inst)) ||
      im.modules.any (fun m => m.enabled && m.peerInst == inst)
  | none => false

/-- An instance works as far as this one knows: no message has named it as failed, and not all links to it are lost (R45). -/
def knownWorking (s : State) (inst : Nat) : Bool :=
  !s.faults.gone.contains inst && (inst == me s || !linkedTo s inst || [1, 2, 3, 4].any (fun l => !(linkSet s inst l).isEmpty))

/-- An instance has been named as failed. -/
def noteGone (inst : Nat) (s : State) : State :=
  if s.faults.gone.contains inst || inst == 0xFFFFFF then s
  else { s with faults := { s.faults with gone := s.faults.gone ++ [inst] } }

/-- The next standby hearth of a group: the first working entry of its list, after those used up (R45). -/
def nextStandby (s : State) (g : GroupDef) : Option Nat :=
  (g.standby.drop (smGet 0 s.kiln.standbyUsed g.num)).find? (knownWorking s)

/-- The instance that is to be coordinator after the present one: the seal group's next standby hearth, else its fallback root (R45, R380,
R397). -/
def successor (s : State) : Nat :=
  match groupNow s (sealGroup s) with
  | some g => (nextStandby s g).getD ((fallbackRoots s g (coordinator s)).headD (coordinator s))
  | none => coordinator s

/-- Where a message for the coordinator goes when `lost` has failed: to its successor, where that was the coordinator (R380, R391). -/
def coordWithout (lost : Nat) (s : State) : Nat := if coordinator s = lost then successor s else coordinator s

/-- A flooded message that came over a link, and so is still to be forwarded. -/
def fromLink (a : Arrival) : Bool :=
  match a.src with
  | .link _ _ => true
  | _ => false

/-- Give the message that is next in CHANGE_SEQ, if it is held back, to the inbox. -/
def releaseHeld (s : State) : State :=
  let next := s.faults.changeSeq.toNat + 1
  match s.faults.heldBack.find? (fun m => pcSeq m == next) with
  | some m => deliver { src := .self 0, vc := 4, body := .mgmt m }
      { s with faults := { s.faults with heldBack := s.faults.heldBack.filter (fun x => pcSeq x != next) } }
  | none => s

/-- Apply a flooded change in CHANGE_SEQ order: a copy already applied is dropped; a message is forwarded once; one that arrives ahead
of a lower one is held back (R381). A coordinator numbers on from the highest that it has seen. -/
def applyFlooded (a : Arrival) (m : Msg) (f : State → State) (s : State) : State :=
  let seq := pcSeq m
  let cur := s.faults.changeSeq.toNat
  if seq ≤ cur ∨ s.faults.heldBack.any (fun x => pcSeq x == seq) then s
  else
    let s0 := if fromLink a then flood m s else s
    let high := if s0.faults.lastSeq.toNat < seq then BitVec.ofNat 32 seq else s0.faults.lastSeq
    let s1 := { s0 with faults := { s0.faults with lastSeq := high } }
    if seq = cur + 1 then releaseHeld (f { s1 with faults := { s1.faults with changeSeq := BitVec.ofNat 32 seq } })
    else { s1 with faults := { s1.faults with heldBack := s1.faults.heldBack ++ [m] } }

/-- The coordinator numbers a change, floods it to all and applies it itself. `mk` takes CHANGE_SEQ, `f` applies the message. -/
def floodChange (mk : Nat → Msg) (f : Msg → State → State) (s : State) : State :=
  let seq := s.faults.lastSeq + 1
  let m0 := mk seq.toNat
  let m := { m0 with m0 := setField m0.m0 8 24 0xFFFFFF }
  applyFlooded { src := .self 0, vc := 4, body := .mgmt m } m (f m) (flood m { s with faults := { s.faults with lastSeq := seq } })

/-! ### Cord buffers (R187, R188) -/

/-- Banks in the order of R188 for a home bank: itself, the others of its half, the other half. -/
def bankOrder (home : Nat) : List Nat :=
  let same := (List.range 8).filter (fun b => b / 4 == home / 4 && b != home)
  let other := (List.range 8).filter (fun b => b / 4 != home / 4)
  home :: (same ++ other)

/-- The lowest free buffer of a bank in service. -/
def freeIn (s : State) (b : Nat) : Option Nat :=
  if s.kiln.bankWorking.getLsbD b then
    ((List.range 384).map (fun i => 384 * b + i)).find? (fun x =>
      !s.kiln.bufRetired.contains x && !(s.kiln.used.any (fun p => p.1 == x)))
  else none

/-- The buffer that R188 gives a cord; a bank of the other half is reached through the seam bridge, while that is open (R9). -/
def pickBuf (s : State) (cord : Nat) : Option Nat :=
  let home := ((kilnFor s cord).getD 0)
  ((bankOrder home).filter (fun b => b / 4 == home / 4 || !s.power.eastClosed)).findSome? (freeIn s)

/-- Take a buffer for a use. -/
def takeBuf (b : Nat) (u : BufUse) (s : State) : State :=
  { s with kiln := { s.kiln with used := smPut s.kiln.used b u } }

/-- No buffer: operands of a segment combiner and cords that pass through hold none. -/
def noBuf : Nat := 3072

/-- Buffers in use of one kind. -/
def usedOf (s : State) (u : BufUse) : Nat := (s.kiln.used.filter (fun p => decide (p.2 = u))).length

/-- Buffers in use of one kind, but for one. -/
def usedBut (s : State) (u : BufUse) (b : Nat) : Nat := (s.kiln.used.filter (fun p => decide (p.2 = u) && p.1 != b)).length

/-- An arrival that is in buffer `x` is in buffer `y` instead. -/
def moveArrival (x y : Nat) (a : Arrival) : Arrival := if a.buf = some x then { a with buf := some y } else a

/-- What the arrival or hall reserve holds in buffer `x` is in buffer `y` instead (R206): a cord that came early, one on its way to its node,
or a unit of a hall flow. -/
def moveBuf (x y : Nat) (s : State) : State :=
  { s with
    kiln := { s.kiln with early := s.kiln.early.map (fun e => if e.buf = x then { e with buf := y } else e) },
    inbox := s.inbox.map (moveArrival x y),
    fabric := { s.fabric with items := s.fabric.items.map (fun it => { it with item := moveArrival x y it.item }) },
    links := s.links.map (fun p => (p.1, { p.2 with flows := p.2.flows.map (fun q => (q.1, { q.2 with
      units := q.2.units.map (fun u => if u.buf = x then { u with buf := y } else u),
      heldUnits := q.2.heldUnits.map (fun h => if h.buf = x then { h with buf := y } else h) })) })) }

/-- The index of a cord, 0 for other content. -/
def bodyIdx (b : Body) : Nat :=
  match b with
  | .cord c => cIdx c
  | .root c => cIdx c
  | _ => 0

/-- The index of the cord that the arrival or hall reserve holds in buffer `x`, by its header. -/
def bufIdx (s : State) (x : Nat) : Nat :=
  (((s.kiln.early.filter (fun e => e.buf == x)).map (fun e => bodyIdx e.item.body)) ++
    ((s.inbox ++ s.fabric.items.map (fun it => it.item)).filter (fun a => a.buf == some x)).map (fun a => bodyIdx a.body) ++
    (s.links.flatMap (fun p => p.2.flows.flatMap (fun q =>
      (q.2.units.filter (fun u => u.buf == x)).filterMap (fun u => u.cord.map cIdx) ++
      (q.2.heldUnits.filter (fun h => h.buf == x)).filterMap (fun h => h.frag0.map (fun b => cIdx (cordOfBytes b))))))).headD 0

/-! ### Die failure (R379) -/

/-- A read given up (R182): the request that the leaf holds stays until its grant (R126), and the data of granted beats are discarded. -/
def voidRead (r : ReadCtx) : Option ReadCtx :=
  if r.want.isEmpty && r.wait.isEmpty then none else some { r with want := r.want.take 1, void := true }

/-- A leaf with its triggers disarmed (R135, R182). -/
def disarmLeaf (l : Leaf) : Leaf :=
  { l with trigs := l.trigs.map (fun t => { t with armed := false }), fireQ := [],
           reading := l.reading.bind (fun r => if r.restore.isSome then some r else voidRead r) }

/-- Disarm every trigger entry of the instance. -/
def disarmAll (s : State) : State := { s with leaves := s.leaves.map (fun p => (p.1, disarmLeaf p.2)) }

/-- A buffer use that belongs to the claims of one step. -/
def stepUse (u : BufUse) : Bool :=
  match u with
  | .node _ => true
  | .permit _ => true
  | _ => false

/-- Drop every node instance, claim and claimed buffer of the step; the reserves keep theirs (R196). -/
def freeKiln (s : State) : State :=
  { s with kiln := { s.kiln with used := s.kiln.used.filter (fun p => !stepUse p.2), nodes := [], passHolds := [], waiting := [],
                                 admitted := [], armed := [], recoveryUsed := 0, landed := [] } }

/-- Drop what the arrival reserve holds, but for the items that are kept; the buffers of inbox items that came from it are free too. -/
def freeEarly (keep : Arrival → Bool) (s : State) : State :=
  let gone := s.kiln.early.filter (fun x => !keep x.item)
  let s1 := forEach gone s (fun x t => giveBuf x.buf t)
  { s1 with kiln := { s1.kiln with early := s1.kiln.early.filter (fun x => keep x.item) } }

/-- Free the buffers of the arrival reserve that inbox items still hold, for those that go. -/
def dropInbox (keep : Arrival → Bool) (s : State) : State :=
  let s1 := forEach (s.inbox.filter (fun a => !keep a)) s (fun a t => withSome a.buf t giveBuf)
  { s1 with inbox := s1.inbox.filter keep }

/-- No cord buffer is in use any more: seal rows and hall units lose theirs (R379). -/
def noBuffers (s : State) : State :=
  { s with
    kiln := { s.kiln with used := [] }, step := { s.step with cols := [] },
    links := s.links.map (fun p => (p.1, { p.2 with flows := p.2.flows.map (fun q => (q.1, { q.2 with
      units := q.2.units.map (fun u => { u with buf := noBuf }), heldUnits := q.2.heldUnits.map (fun h => { h with buf := noBuf }) })) })) }

/-- The die fails with a cause (R379): DIE_FAILED is set and logged, triggers are disarmed, buffers freed, the step state becomes HALTED,
and DIE_FAILED goes toward the coordinator. -/
def dieFail (cause : Nat) (s : State) : State :=
  if s.faults.dieFailed then s
  else
    let s1 := { s with faults := { s.faults with dieFailed := true, cause := BitVec.ofNat 5 cause,
                                                 pending := s.faults.pending ||| 0x01 },
                       step := { s.step with state := .halted } }
    let s2 := noBuffers (freeEarly (fun _ => false) (freeKiln (disarmAll s1)))
    let d := (myDie s).getD 0
    let s3 := logEv 0x0802 unitPE cause d s2
    let co := coordWithout (me s) s
    route co (mkChange s3 co 3 0 false (myDie s).isNone 0 d 0 0 (me s) 0xFFFFFF 0 0 0) s3

/-! ### Units, banks and buffers -/

/-- A cord that a retirement moves to another unit is computed there anew: its residue attempts begin again (R86). `old` is the state before
the retirement. -/
def restartMoved (old s : State) : State :=
  { s with kiln := { s.kiln with nodes := s.kiln.nodes.map (fun x => if x.node.stage.val = 0 then x else
      { x with opens := x.opens.map (fun o => if kilnFor s o.idx = kilnFor old o.idx then o else { o with attempts := 0 }) }) } }

/-- Take a kiln unit out of service; with fewer than 4 left the die fails (R86, Table: Causes of die failure). -/
def retireUnit (k : Nat) (s : State) : State :=
  let w := s.kiln.unitWorking &&& ~~~(BitVec.ofNat 8 (2 ^ k))
  let s1 := leaveDom false (17 + k) (restartMoved s { s with kiln := { s.kiln with unitWorking := w } })
  if popcount8 w < 4 then dieFail 1 s1 else s1

/-- Take a bank out of service, with the reason of R205 (0 for none): logged, and with fewer than 4 left the die fails (R206). -/
def retireBank (b reason : Nat) (s : State) : State :=
  if !s.kiln.bankWorking.getLsbD b then s
  else
    let w := s.kiln.bankWorking &&& ~~~(BitVec.ofNat 8 (2 ^ b))
    let s1 := { s with kiln := { s.kiln with bankWorking := w, bankDue := s.kiln.bankDue.filter (fun p => p.1 != b),
                                             bankDueNext := s.kiln.bankDueNext.filter (fun p => p.1 != b) } }
    let s2 := leaveDom false (25 + b) (logEv 0x0504 (unitBank b) reason (popcount8 w) s1)
    if popcount8 w < 4 then dieFail 2 s2 else s2

/-- A bank meets a condition of R205: due at the coming boundary, or at the one after it once the contribution has been sent. -/
def bankDue (b reason : Nat) (s : State) : State :=
  if smGet 0 s.kiln.bankDue b ≠ 0 ∨ !s.kiln.bankWorking.getLsbD b then s
  else if s.step.contributed then { s with kiln := { s.kiln with bankDueNext := smSet 0 s.kiln.bankDueNext b reason } }
  else { s with kiln := { s.kiln with bankDue := smSet 0 s.kiln.bankDue b reason } }

/-- Retire one cord buffer: counted and logged; more than 32 in a bank make the bank due (R203, R205). -/
def retireBuffer (x : Nat) (s : State) : State :=
  if s.kiln.bufRetired.contains x then s
  else
    let b := x / 384
    let s1 := { s with kiln := { s.kiln with bufRetired := insertNat x s.kiln.bufRetired } }
    let s2 := logEv 0x0503 (unitBank b) x 0 (ctrAdd (0x30418 + 0x40 * b) 1 s1)
    if 32 < (s2.kiln.bufRetired.filter (fun y => y / 384 == b)).length then bankDue b 1 s2 else s2

/-- Ticks within a sliding window of the last `w` ticks. -/
def inWindow (now w : Nat) (l : List Nat) : List Nat := l.filter (fun t => decide (now ≤ t + w))

/-- The kiln rate windows of R205 and R401: 10^8 ticks. -/
def rateWindow : Nat := 100000000

/-- A cord with the 64-bit word `w` of its payload replaced. -/
def spoilWord (w : Nat) (v : Word) (c : Cord) : Cord :=
  if 8 * w + 8 ≤ c.payload.length then { c with payload := c.payload.take (8 * w) ++ wordBytes v ++ c.payload.drop (8 * w + 8) } else c

/-- A unit's bodies with the 64-bit word `w` of its cord's payload replaced; the header comes before the payload (R235). -/
def spoilBodies (w : Nat) (v : Word) (bs : List (List Byte)) : List (List Byte) :=
  let all := bs.flatten
  let off := 64 + 8 * w
  let new := if off + 8 ≤ all.length then all.take off ++ wordBytes v ++ all.drop (off + 8) else all
  (bs.foldl (fun a b => (a.1 ++ [a.2.take b.length], a.2.drop b.length)) (([] : List (List Byte)), new)).1

/-- A seal row with the 64-bit word `w` of its payload replaced. -/
def spoilRow (w : Nat) (v : Word) (r : Row) : Row :=
  r.mapIdx (fun i x => if i = 2 * w then v.setWidth 32 else if i = 2 * w + 1 then (v >>> 32).setWidth 32 else x)

/-- An item whose cord is replaced. -/
def mapCord (f : Cord → Cord) (a : Arrival) : Arrival :=
  match a.body with
  | .cord c => { a with body := .cord (f c) }
  | _ => a

/-- A hall flow whose unit in buffer `b` is spoilt; `mark` notes it on a unit that is still to be delivered. -/
def spoilFlow (mark : Bool) (b w : Nat) (v : Word) (x : Flow) : Flow :=
  { x with
    units := x.units.map (fun u => if u.buf = b then { u with bodies := spoilBodies w v u.bodies, cord := u.cord.map (spoilWord w v) } else u),
    heldUnits := x.heldUnits.map (fun h => if h.buf ≠ b then h else match h.frag0, h.frag1 with
      | some p, some q => (match spoilBodies w v [p, q] with
          | [p2, q2] => { h with frag0 := some p2, frag1 := some q2, bad := h.bad || mark }
          | _ => h)
      | some p, none => { h with frag0 := (spoilBodies w v [p]).head?, bad := h.bad || mark }
      | _, _ => { h with bad := h.bad || mark }) }

/-- An arrival in buffer `b` is spoilt; `mark` notes it for when it is taken. -/
def spoilArrival (mark : Bool) (b w : Nat) (v : Word) (a : Arrival) : Arrival :=
  if a.buf = some b then { mapCord (spoilWord w v) a with bad := a.bad || mark } else a

/-- The cord held in buffer `b` reads an open value in its word `w`, which SECDED cannot correct (R203, log 2). `mark` notes it on a cord whose
step is still to open. -/
def spoilBuf (mark : Bool) (b w : Nat) (s : State) : State :=
  let v := Config.freeWord s.free
  let f := spoilWord w v
  useFree { s with
    kiln := { s.kiln with
      nodes := s.kiln.nodes.map (fun n => { n with opens := n.opens.map (fun o =>
        { o with ops := o.ops.map (fun p => if p.buf = b then { p with cord := f p.cord } else p),
                 partialOut := if n.results.contains (o.idx, b) then o.partialOut.map f else o.partialOut }) }),
      early := s.kiln.early.map (fun x => if x.buf = b then { x with item := mapCord f x.item, bad := true } else x) },
    inbox := s.inbox.map (spoilArrival mark b w v),
    fabric := { s.fabric with items := s.fabric.items.map (fun it => { it with item := spoilArrival mark b w v it.item }) },
    step := { s.step with cols := s.step.cols.map (fun x => { x with
      rows := x.rows.mapIdx (fun i r => if x.bufs[i]? = some b then (r.1, spoilRow w v r.2) else r) }) },
    links := s.links.map (fun p => (p.1, { p.2 with flows := p.2.flows.map (fun q => (q.1, spoilFlow mark b w v q.2)) })),
    leaves := s.leaves.map (fun p => (p.1, { p.2 with held := p.2.held.map (fun h =>
      if h.buf = some b then { h with cord := f h.cord } else h) })) }

/-- A cord of the current step lies in the hall buffer `b`. -/
def hallHoldsStep (s : State) (b : Nat) : Bool :=
  s.links.any (fun p => p.2.flows.any (fun q =>
    q.2.units.any (fun u => u.buf == b && u.cord.any (fun c => cStep c == stepNo s)) ||
    q.2.heldUnits.any (fun h => h.buf == b && h.type == 0 && h.frag0.any (fun x => cStep (cordOfBytes x) == stepNo s))))

/-- A buffer in use holds data of the step that runs (R203): a claim, a seal row, a cord that came before the open and has not been taken
yet, or a hall unit of the step. -/
def holdsStep (s : State) (b : Nat) : Bool :=
  match s.kiln.used.find? (fun p => p.1 == b) with
  | none => false
  | some (_, .arrival) => (s.inbox ++ s.fabric.items.map (fun it => it.item)).any (fun a => a.buf == some b) || hallHoldsStep s b
  | some (_, .hall) => hallHoldsStep s b
  | some _ => true

/-- One error word that a read of kiln memory meets (R203, R205): corrected and counted, or the buffer retired and, where it holds data of
the step, the step unclean; the bank counts its uncorrectable words in an attempt. -/
def eccHit (h : EccHit) (s : State) : State :=
  let x := h.buffer.val
  let b := x / 384
  if s.kiln.bufRetired.contains x || !s.kiln.bankWorking.getLsbD b then s
  else if h.uncorrectable then
    let inUse := s.kiln.used.any (fun p => p.1 == x)
    let s1 := logEv 0x0502 (unitBank b) x (if inUse then 1 else 0) (ctrAdd (0x30408 + 0x40 * b) 1 s)
    let s2 := onlyIf (running s) s1 (fun t => { t with kiln := { t.kiln with bankUe := smMod 0 t.kiln.bankUe b (· + 1) } })
    let s3 := retireBuffer x (if inUse then spoilBuf (!(running s && holdsStep s x)) x h.word.val s2 else s2)
    let s4 := if 2 ≤ smGet 0 s3.kiln.bankUe b then bankDue b 2 s3 else s3
    if holdsStep s x then raiseUnclean uEcc s4 else s4
  else
    let now := s.time.tick.toNat
    let old := inWindow now rateWindow (smGet [] s.kiln.bankCe b)
    let s1 := logEv 0x0501 (unitBank b) x h.word.val (ctrAdd (0x30400 + 0x40 * b) 1 s)
    let word := 2048 * x + h.word.val
    let s2 := { s1 with kiln := { s1.kiln with wordCe := smMod 0 s1.kiln.wordCe word (· + 1),
                                               bankCe := smSet [] s1.kiln.bankCe b (old ++ [now]) } }
    let n := old.length + 1
    let warn := policy s (fun p => p.ceWarn) 256
    let s3 := if warn ≤ n ∧ !s.kiln.bankWarn.getLsbD b then
        setPend 0x20 (logEv 0x080C (unitBank b) n warn
          { s2 with kiln := { s2.kiln with bankWarn := s2.kiln.bankWarn ||| BitVec.ofNat 8 (2 ^ b) } })
      else s2
    let s4 := if policy s (fun p => p.ceRetire) 4096 ≤ n then bankDue b 3 s3 else s3
    if 3 ≤ smGet 0 s4.kiln.wordCe word then retireBuffer x s4 else s4

/-- Every error word of a read. -/
def eccHits (l : List EccHit) (s : State) : State := forEach l s eccHit

/-- A seal collection without the rows whose buffers are lost. -/
def loseRows (lost : Nat → Bool) (x : SealCol) : SealCol :=
  let keep := (List.range x.rows.length).filter (fun i => !(x.bufs[i]?.any lost))
  { x with rows := keep.filterMap (fun i => x.rows[i]?), bufs := keep.filterMap (fun i => x.bufs[i]?) }

/-- Every cord held in a bank, in any claim or reserve, is lost (R343): a hall unit held for reordering is gone, and the copy of one that is
not acknowledged cannot be sent again. -/
def loseBank (b : Nat) (s : State) : State :=
  let inB := fun (x : Nat) => x / 384 == b
  { s with
    kiln := { s.kiln with
      used := s.kiln.used.filter (fun p => !inB p.1),
      nodes := s.kiln.nodes.map (fun n => { n with
        results := n.results.filter (fun r => !inB r.2),
        opens := n.opens.map (fun o => { o with
          ops := o.ops.filter (fun p => !inB p.buf),
          partialOut := if n.results.any (fun r => r.1 == o.idx && inB r.2) then none else o.partialOut }) }),
      early := s.kiln.early.filter (fun e => !inB e.buf) },
    inbox := s.inbox.filter (fun a => !a.buf.any inB),
    fabric := { s.fabric with items := s.fabric.items.map (fun it =>
      if it.item.buf.any inB then { it with void := true, item := { it.item with buf := none } } else it) },
    step := { s.step with cols := s.step.cols.map (loseRows inB) },
    links := s.links.map (fun p => (p.1, { p.2 with flows := p.2.flows.map (fun q => (q.1, { q.2 with
      units := q.2.units.map (fun u => if inB u.buf then { u with bodies := [], cord := none, resend := [], buf := noBuf } else u),
      heldUnits := q.2.heldUnits.filter (fun h => !inB h.buf) })) })),
    leaves := s.leaves.map (fun p => (p.1, { p.2 with held := p.2.held.filter (fun h => match h.buf with
      | some x => !inB x
      | none => true) })) }

/-! ### Splices (R387 to R389) -/

/-- The idle spare for a tile's position: its segment first, then its half, then the other half (R387). -/
def chooseSpare (s : State) (t : Nat) : Option Nat :=
  let idle := idleSpares s
  match idle.find? (fun x => segOf x == segOf t) with
  | some x => some x
  | none => match idle.find? (fun x => segOf x / 8 == segOf t / 8) with
    | some x => some x
    | none => idle.head?

/-- KX_SPLICE with the splice of a position recorded: in the position's own entry if it has one, else in the first free one (R390). -/
def recordSplice (pos spare : Nat) (m : SMap Word) : SMap Word :=
  let w := bitAt 63 true ||| putField 52 10 pos ||| putField 42 10 spare
  match (List.range 128).find? (fun k => let v := smGet 0 m k; bitOf v 63 && fieldOf v 52 10 == pos) with
  | some k => smSet 0 m k w
  | none => match (List.range 128).find? (fun k => !bitOf (smGet 0 m k) 63) with
    | some k => smSet 0 m k w
    | none => m

/-- The tally of a leaf whose position is spliced away: open records become MOVED (R407). -/
def tallyMoved (tick : Word) (l : Leaf) : Leaf :=
  { l with tally := l.tally.map (fun t => if t.status = 1 then { t with status := 5, lastTick := tick } else t) }

/-- Retire a tile; it never becomes a spare again. -/
def retireTile (t : Nat) (s : State) : State :=
  { s with faults := { s.faults with retired := s.faults.retired ||| (BitVec.ofNat 576 1 <<< t) } }

/-- Open a recovery hold of a kind at this instance: HOLD goes to the coordinator (R383). -/
def openHold (k : HoldKind) (s : State) : State :=
  let s1 := logEv 0x080D unitPE 1 ((myDie s).getD 0) { s with faults := { s.faults with
    hold := some (if s.faults.hold = some .standin then .standin else k), held := true, hostDone := false } }
  route (coordinator s) (mkChange s1 (coordinator s) 9 0 false false 0 ((myDie s).getD 0) 0 0 (me s) (me s) 0 0 0) s1

/-- SEED_CRC of R394: over seed_lo and then seed_hi, little-endian. -/
def seedCrc (s : State) : BitVec 32 := crc32c (wordBytes s.step.seedLo ++ wordBytes s.step.seedHi)

/-- EPOCH_CRC of R394: over the 256 group epochs as 16-bit little-endian values, group 0 first. -/
def epochCrc (e : SMap (BitVec 16)) : BitVec 32 := crc32c ((List.range 256).flatMap (fun g => leBytes 2 (smGet 0 e g).toNat))

/-- RECORD_CRC of R394: over the member table in ascending index, each register little-endian (R443). -/
def recordCrc (m : SMap Word) : BitVec 32 := crc32c ((List.range 65536).flatMap (fun x => wordBytes (smGet memberInit m x)))

/-- MAP_CRC of R394: over the disabled-tile map of this die, 72 bytes (R25). -/
def mapCrc (s : State) : BitVec 32 := crc32c (leBytes 72 (s.kindle.disabledTaken ||| s.kindle.spares).toNat)

/-- What of the restored values does not match STANDIN_COMMIT, as the reason of event 0x080F: 1 step, 2 seed, 3 epochs, 4 record
(R396). -/
def resumeBad (s : State) : Option Nat :=
  match s.faults.commit with
  | none => none
  | some (step, m5, m6) =>
    if s.step.number ≠ step then some 1
    else if (seedCrc s).toNat ≠ fieldOf m5 0 32 then some 2
    else if (epochCrc s.tables.epochs).toNat ≠ fieldOf m6 32 32 then some 3
    else if (recordCrc s.tables.members).toNat ≠ fieldOf m6 0 32 then some 4
    else none

/-- The die releases its hold: HOLD_RELEASE goes to the coordinator (R383). -/
def releaseHold (s : State) : State :=
  let d := (myDie s).getD 0
  let s1 := logEv 0x080D unitPE 2 d { s with faults := { s.faults with hold := none, hostDone := false, commit := none } }
  route (coordinator s) (mkChange s1 (coordinator s) 0xB 0 false false 0 d 0 0 (me s) (me s) 0 0 0) s1

/-- The host has written RECOVERY_DONE: the hold is released once every condition of the recovery is met (R383, R396). `note` logs values
that do not match. -/
def tryRelease (note : Bool) (s : State) : State :=
  match s.faults.hold with
  | none => s
  | some k =>
    if !s.faults.hostDone then s
    else if k = .standin then
      (if !s.faults.restoreDue.isEmpty then s
       else match resumeBad s with
        | some r => if note then logEv 0x080F unitPE r ((myDie s).getD 0) s else s
        | none => releaseHold s)
    else releaseHold s

/-- A splice in OPEN or DONE raises SPLICE and waits for HOLD_ACK with its early request; in ARMED the coming attempt raises it at its
open; in IDLE or HALTED nothing is raised (R389, R383). -/
def spliceUnclean (s : State) : State :=
  if running s then
    { s with step := { s.step with unclean := s.step.unclean ||| uSplice }, faults := { s.faults with awaitAck := true } }
  else if s.step.state = .armed then { s with step := { s.step with uncleanNext := s.step.uncleanNext ||| uSplice } }
  else s

/-- The position of tile `t` moves to `spare` (R387): the tile is retired, its leaf stops, and the splice is recorded and logged. -/
def moveTile (pos t spare : Nat) (s : State) : State :=
  let s1 := retireTile t s
  let s2 := { s1 with faults := { s1.faults with
    moved := s1.faults.moved.filter (fun p => p.1 != pos) ++ [(pos, spare)],
    splices := recordSplice pos spare s1.faults.splices,
    pending := s1.faults.pending ||| 0x02 } }
  let s3 := setLeaf t (fun l => tallyMoved s.time.tick (disarmLeaf l)) s2
  logEv 0x0801 unitPE pos spare s3

/-- Splice a physical tile (R387, R388): a disabled tile, or a retired one that holds no position, is no splice at all; an idle spare is retired; a
position moves to an idle spare, or the die fails with cause 0x05. `none` where the request is to be ignored. -/
def spliceTile (t : Nat) (s : State) : Option State :=
  if s.params.hearthOnly || decide (576 ≤ t) || s.kindle.disabledTaken.getLsbD t ||
      (s.faults.retired.getLsbD t && (logicalOf s t).isNone) then none
  else if (idleSpares s).contains t then some (retireTile t s)
  else match logicalOf s t with
    | none => none
    | some pos => match chooseSpare s t with
      | some x => some (openHold .splice (spliceUnclean (moveTile pos t x s)))
      | none => some (dieFail 5 (retireTile t s))

/-! ### Links that fail (R244, R246) -/

/-- Ask the coordinator, or the hearth that is to become it, for a change: the message goes to it with CHANGE_SEQ 0 (log 21). -/
def requestChange (dest : Nat) (mk : Nat → Msg) (s : State) : State := route dest (mk 0) s

/-- A peer is unreachable at a level (R246 step 3): what waited for a link to it is given up. It leaves the working lists of the nodes it computes
there for this instance's nodes; a lost root is succeeded by the next standby; a lost member die whose L1 placement this is, is declared failed. -/
def peerLost (inst level : Nat) (s0 : State) : State :=
  let s := unparkLost inst level s0
  let co := coordWithout inst s
  forEach s.kiln.groups s (fun g t =>
    let ns := myNodes t g
    let t1 := forEach ns t (fun n u =>
      if n.1 + 1 = level ∧ n.1 < g.topLevel then
        let pc := coordAt level n.2
        if (placesOf u g.num level pc).contains inst then
          if rootInst u g.num = inst ∧ level = g.topLevel then
            (match nextStandby u g with
              | some nb =>
                let dest := if g.num = sealGroup u then nb else co
                requestChange dest (fun q => mkChange u dest 2 g.num false false q 0 pc level inst nb 0 0 0) u
              | none =>
                let dest := if g.num = sealGroup u then (fallbackRoots u g inst).headD co else co
                requestChange dest (fun q => mkChange u dest 2 g.num false false q 0 pc level inst 0xFFFFFF 0 0 0) u)
          else requestChange co (fun q => mkChange u co 1 g.num false false q 0 pc level inst 0xFFFFFF 0 0 0) u
        else u
      else u)
    forEach ns t1 (fun n u =>
      if n.1 = level ∧ level = 1 then
        match (childrenOf g 1 n.2).find? (fun d => holderOf u d == inst) with
        | some d =>
          route co (mkChange u co 3 0 false false 0 d 0 0 inst 0xFFFFFF 0 0 0) (setPend 0x01 (logEv 0x0802 unitPE 6 d u))
        | none => u
      else u))

/-- Two port configurations lead to the same peer (R244): the same peer instance, and on Ethernet, which both are then, the same hall peers
(R19). -/
def samePeer (c d : PortCfg) : Bool :=
  if c.mode = 3 ∨ d.mode = 3 then c.mode == d.mode && sortNat (c.peers.map (fun x => x.inst)) == sortNat (d.peers.map (fun x => x.inst))
  else c.peerInst == d.peerInst

/-- A spare can be asked to take over: it is UP, or it is training once more and the takeover waits (R244, R251). -/
def spareReady (s : State) (q : Nat) : Bool :=
  match (linkAt s q).state with
  | .up => true
  | .degrading => true
  | .retraining => true
  | .training => isReady s
  | _ => false

/-- A qualifying spare for a failed port: P16 before P17 (R244). -/
def spareFor (s : State) (p : Nat) : Option Nat :=
  match portCfg s p with
  | none => none
  | some c => [16, 17].find? (fun q => (linkAt s q).role == 1 && spareReady s q && match portCfg s q with
      | some d => d.spareFor.getLsbD p && samePeer c d
      | none => false)

/-- Send again, on the set that remains, the cords that a lost link had not acknowledged, from the buffers that R209 keeps at the link's
side of the rings. -/
def resendCords (k inst level : Nat) (cs : List Unacked) (s : State) : State :=
  forEach cs s (fun u t => sendInst (unitLink k) inst level u.vc u.cord true t)

/-- The cord that a REORDER holds back at a link (R425). -/
def waitingCord (s : State) (k : Nat) : List Unacked :=
  match (smGet Injector.init s.inject.units k).reorder with
  | some w => if w.seq = 0 then [{ vc := w.vc, flow := w.flow, cord := w.cord }] else []
  | none => []

/-- The cords of a link that are not acknowledged: sent ones first, then those queued; on an Ethernet port those of its hall flows. -/
def unackedCords (s : State) (k : Nat) : List Unacked :=
  let l := linkAt s k
  l.unacked ++
  l.flows.flatMap (fun p => p.2.units.filterMap (fun u => u.cord.map (fun c => { vc := u.vc, flow := p.1, cord := c }))) ++
  waitingCord s k ++
  (l.chans.mapIdx (fun v ch =>
    (ch.queue.filter (fun q => !q.void && q.mark.isNone)).map (fun q => ({ vc := v, flow := q.flow, cord := q.cord } : Unacked)))).flatten

/-- The cords of a link that are not in a numbered unit of one of its hall flows. -/
def queuedCords (s : State) (k : Nat) : List Unacked :=
  (unackedCords s k).filter (fun u => !(linkAt s k).flows.any (fun p => p.1 == u.flow && p.2.units.any (fun x => x.cord == some u.cord)))

/-- The drain markers among the messages of a flit's body. -/
def drainsIn (b : List Byte) : List Msg := ([0, 64, 128].map (fun o => msgOfBytes (slice b o 64))).filter (fun m => mType m == 2)

/-- The drain markers of a link that are not acknowledged, with their flows (R250). -/
def unackedDrains (l : LinkSt) : List (Nat × Msg) :=
  ((l.replay ++ l.txq).filter (fun f => f.ctrl)).flatMap (fun f => (drainsIn f.body).map (fun m => (0, m))) ++
  (l.ctrlQ.filter (fun m => mType m == 2)).map (fun m => (0, m)) ++
  l.chans.flatMap (fun ch => ch.queue.filterMap (fun q => q.mark.map (fun m => (0, m)))) ++
  l.flows.flatMap (fun p => (p.2.units.filter (fun u => u.type == 2)).flatMap (fun u => u.bodies.map (fun b => (p.1, msgOfBytes b)))) ++
  l.flowMgmt.flatMap (fun p => (p.2.filter (fun m => m.1 && mType m.2 == 2)).map (fun m => (p.1, m.2)))

/-- A link unit with nothing queued or in flight; the state of its hall flows stays for the spare that takes them over (R244). -/
def quietLink (l : LinkSt) : LinkSt :=
  { l with chans := l.chans.map (fun ch => { ch with queue := [], partialRx := none }), ctrlQ := [], mgmtQ := [], txq := [],
           txFrames := [], timingQ := [], replay := [], resend := [], nak := false, nakOut := false, ackDue := 0, unacked := [], degrade := none,
           wire := [], group := [], line := [], linePart := [] }

/-- A drain marker that a lost link leaves goes out again on the link that replaces it, from that link's own controller (R250). -/
def drainTo (inst level : Nat) (m : Msg) (s : State) : State :=
  match linkSet s inst level with
  | (k, f) :: _ => ctrlOn k f m s
  | [] => s

/-- SPARE_TAKE for a port (R244). -/
def mkTake (p : Nat) : Msg := { msgZero with m0 := putField 56 8 6 ||| putField 48 8 p }

/-- A spare asks to take over port `stands`, and keeps what that port had not had acknowledged (R244, R246, R250). DESIGN CHOICE, UNSAFE (log
75): an Ethernet spare's request travels on the flow of HALL_PEERS entry 0. -/
def askTake (q stands : Nat) (cs : List Unacked) (ds : List (Nat × Msg)) (s : State) : State :=
  let s1 := ctrlOn q 0 (mkTake stands) (setLink q (fun x => { x with taking := some stands, unacked := x.unacked ++ cs }) s)
  if isEth s q then s1 else forEach ds s1 (fun d t => ctrlOn q 0 d.2 t)

/-- A link to an instance is left at a level (R246): one that works, or one whose first training has not ended. -/
def linkLeft (s : State) (inst level : Nat) : Bool :=
  !(linkSet s inst level).isEmpty || (List.range 24).any (fun k =>
    let l := linkAt s k
    let fs := if isEth s k then List.range (((effPort s k).map (fun c => c.peers.length)).getD 0) else [0]
    linkLevel s k == level && (decide (18 ≤ k) || l.role == 0 || l.role == 2) &&
      fs.any (fun f => (peerOf s k f == inst || (level == 1 && relayVia s inst == some (peerOf s k f))) &&
        (l.state == .training || (isEth s k && l.state == .up && (flowAt s k f).state == 1))))

/-- A link fails (R246). A spare that is idle or unwired carries nothing, and the port whose place a spare was taking asks the next one. What a
failed port held unacknowledged goes again on the links left to its peer; with none of those left a qualifying spare takes over, and with none
the peer is unreachable. At L1 nothing is re-sent, and the dies reached by relay through the peer are lost with it (R212, R233). -/
def failLink (k reason : Nat) (s : State) : State :=
  let l := linkAt s k
  if l.state = .failed then s
  else
    let level := linkLevel s k
    let inst := peerOf s k 0
    let stands := l.taking.getD (actsFor s k)
    let idle := decide (k < 18) && (l.role == 1 || l.role == 3) && l.taking.isNone
    let cs := unackedCords s k
    let queued := queuedCords s k
    let ds := unackedDrains l
    let s1 := setLink k (fun x => { quietLink x with state := .failed, failReason := reason, taking := none, answering := none })
      { s with inject := { s.inject with units := smMod Injector.init s.inject.units k (fun u => { u with reorder := none }) } }
    let s2 := logEv 0x0604 (unitLink k) reason 0 s1
    let lose := fun (i lv : Nat) (t : State) => if linkLeft t i lv then t else peerLost i lv t
    let spare := if k < 18 then spareFor s2 stands else none
    if idle then s2
    else if 18 ≤ k then
      let t := if (linkSet s2 inst 1).isEmpty then s2 else forEach ds s2 (fun d t => drainTo inst 1 d.2 t)
      forEach (inst :: relayedBy s inst) t (fun i u => lose i 1 u)
    else if isEth s k then
      match portCfg s stands with
      | none => s2
      | some c =>
        let fs := List.range c.peers.length
        match (if fs.all (fun f => !(linkSet s2 (peerOf s k f) 4).isEmpty) then none else spare) with
        | some q => askTake q stands queued ds s2
        | none => forEach fs s2 (fun f t =>
            let i := peerOf s k f
            if (linkSet t i 4).isEmpty then lose i 4 t
            else forEach (ds.filter (fun d => d.1 == f)) (resendCords k i 4 (cs.filter (fun u => u.flow == f)) t) (fun d u => drainTo i 4 d.2 u))
    else if !(linkSet s2 inst level).isEmpty then forEach ds (resendCords k inst level cs s2) (fun d t => drainTo inst level d.2 t)
    else match spare with
      | some q => askTake q stands cs ds s2
      | none => lose inst level s2

end Sys2Proof.Machine
end

