-- ==== Sys2Proof/Machine/Power.lean ====
section
/-! DEFINITION. Power.lean: domains, pre-heat, cooling, banking, throttling and power faults (chapter 12; R448, R450). -/

namespace Sys2Proof.Machine

/-! ### Requests (R341, R345, R357) -/

/-- Units held BANKED until the next kindling (R350). -/
def heldBanked (s : State) (d : Nat) : Bool :=
  if 1 ≤ d ∧ d ≤ 16 then !(s.kindle.logical.any (fun t => segOf t + 1 == d))
  else if 17 ≤ d ∧ d ≤ 24 then !s.kiln.unitWorking.getLsbD (d - 17)
  else if 25 ≤ d ∧ d ≤ 32 then !s.kiln.bankWorking.getLsbD (d - 25)
  else if 33 ≤ d ∧ d ≤ 50 then
    (match portCfg s (d - 33) with
      | some c => c.mode == 0
      | none => true) || (linkAt s (d - 33)).role == 3
  else if 51 ≤ d ∧ d ≤ 56 then (match modCfg s (d - 51) with
    | some c => !c.enabled
    | none => true)
  else false

/-- Ask for one domain, its clock aside: KX_PD_REQ rises only while the grant is 0; a domain whose grant has not fallen yet is wanted
again once it has, and one that was to leave stays (R341, R357). A domain held BANKED is not asked for (R350). -/
def requestOne (d : Nat) (s : State) : State :=
  let x := dom s d
  if !implemented s d || (s.image.isSome && heldBanked s d) then s
  else match x.st with
    | .warm => s
    | .waking => setDom d (fun y => { y with leave := none }) s
    | _ =>
      if x.gnt then setDom d (fun y => { y with wanted := true }) s
      else setDom d (fun y => { y with st := .waking, req := true, wanted := false, lateCounted := false })
        { s with power := { s.power with reqSince := smSet (0, 0) s.power.reqSince d (s.time.tick.toNat, pausedTotal s) } }

/-- Ask for a domain; where its half's clock is stopped, the clocking domain is woken first and the domain follows (R345). -/
def requestDom (d : Nat) (s : State) : State :=
  match clockDom d with
  | none => requestOne d s
  | some c =>
    if warm s c || (s.image.isSome && heldBanked s d) then requestOne d s
    else
      let s1 := requestOne c s
      if domSt s1 d == .banked || domSt s1 d == .off then setDom d (fun y => { y with wanted := true }) s1 else s1

/-- Ask for several domains. -/
def requestDoms (l : List Nat) (s : State) : State := forEach l s requestDom

/-- Raise the requests that waited for a clocking domain. -/
def requestWanted (s : State) : State :=
  forEach (s.power.doms.filter (fun p => p.2.wanted && !p.2.gnt && (match clockDom p.1 with
    | some c => warm s c
    | none => true))) s (fun p t => requestOne p.1 t)

/-! ### Cooling (R348 to R350) -/

/-- Offset of the snapshot record of a domain's unit, for D1 to D59. -/
def recordOf (d : Nat) : Nat :=
  if d ≤ 16 then 0x40100 + 64 * (d - 1)
  else if d ≤ 24 then 0x40500 + 64 * (d - 17)
  else if d ≤ 32 then 0x40700 + 64 * (d - 25)
  else if d ≤ 50 then 0x40900 + 64 * (d - 33)
  else if d ≤ 56 then 0x40D80 + 64 * (d - 51)
  else 0x40F00 + 64 * (d - 57)

/-- The keep-warm set of R349, with the domains that hold a valid record of a held capture (R422). -/
def keepWarm (s : State) (d : Nat) : Bool :=
  let segLoaded := decide (1 ≤ d) && decide (d ≤ 16) && s.leaves.any (fun p => segOf p.1 + 1 == d &&
    (!p.2.trigs.isEmpty || !p.2.lands.isEmpty) && (p.2.stepOpen || p.2.sealing || running s))
  let live := isReady s && !s.power.banked
  d == 0 || decide (62 ≤ d) ||
    (live && d == 57) ||
    (live && decide (33 ≤ d) && decide (d ≤ 56) && linkUp s (if d ≤ 50 then d - 33 else d - 51 + 18)) ||
    segLoaded ||
    (decide (1 ≤ d) && decide (d ≤ 16) && s.step.state == .halted && !s.params.hearthOnly && !s.power.bankPending && !s.power.banked) ||
    (d == 60 && blockDoms.any (fun x => x != 60 && !eastDom x && (domSt s x == .warm || domSt s x == .waking))) ||
    (d == 61 && blockDoms.any (fun x => x != 61 && eastDom x && (domSt s x == .warm || domSt s x == .waking))) ||
    (d == 59 && warm s 60 && warm s 61) ||
    (s.freeze.held && decide (1 ≤ d) && decide (d ≤ 59) && bitOf (smGet 0 s.freeze.captured (recordOf d)) 63)

/-- An entry still has an open claim at this instance. -/
def claimOpen (s : State) (plan : Nat) : Bool :=
  s.kiln.nodes.any (fun n => n.plan == plan && decide (0 < n.claim) && decide (n.lowest < n.cords)) ||
    s.kiln.passHolds.any (fun p => p.plan == plan && !p.closed)

/-- A raised pre-heat still names its domains: until the open, and then while its entry has an open claim (R348). -/
def preheatLive (s : State) (plan : Nat) : Bool := s.step.state == .armed || (running s && claimOpen s plan)

/-- A pre-heat or a HOLD names the domain. -/
def preheated (s : State) (d : Nat) : Bool :=
  s.power.preheats.any (fun p => p.2.getLsbD d && preheatLive s p.1) || s.power.holds.any (fun p => p.2.1.getLsbD d)

/-- A cord in the inbox waits for the kiln unit that R12 gives its index. -/
def waitsForKiln (s : State) (a : Arrival) (k : Nat) : Bool :=
  match a.body with
  | .cord c => (decide (cKind c ≤ 6) || decide (cKind c = 9)) && kilnFor s (cIdx c) == some k
  | _ => false

/-- A cord in the inbox waits for a segment: one that its combiner takes, or lands there. -/
def waitsForSeg (s : State) (a : Arrival) (g : Nat) : Bool :=
  match a.src, a.body with
  | .seg h, _ => h == g
  | .leaf t, .cord _ => segOf t == g
  | .link _ _, .cord c => decide (cKind c = 7 ∨ cKind c = 8 ∨ cKind c = 10) && segOfLogical s (cTile c) == g
  | _, _ => false

/-- A link holds a cord, a flit, a frame, a message or a retry (R348). -/
def linkBusy (l : LinkSt) : Bool :=
  l.chans.any (fun c => !c.queue.isEmpty || c.partialRx.isSome) || !l.ctrlQ.isEmpty || !l.mgmtQ.isEmpty || !l.txq.isEmpty ||
    !l.replay.isEmpty || !l.halves.isEmpty || !l.txFrames.isEmpty || !l.timingQ.isEmpty || l.flowMgmt.any (fun p => !p.2.isEmpty) ||
    l.flows.any (fun p => !p.2.units.isEmpty || !p.2.heldUnits.isEmpty)

/-- A node instance has an admitted claim of which cord index `c` is computed here and not closed. -/
def claimIdx (s : State) (n : NodeInst) (c : Nat) : Bool :=
  n.admitted && decide (0 < n.claim) && decide (n.node.stage.val ≠ 0) && decide (n.lowest ≤ c) && !n.closed.contains c &&
    (decide (n.node.stage.val = 1) || match entryAt s n.plan with
      | some e => siteOf s.kiln.places (eGroup e) (n.node.stage.val - 1) n.node.coord.toNat c == some (me s)
      | none => false)

/-- An open claim, or the open hold of a PASS entry, gives work to a kiln unit and so to its home bank (R188, R348). -/
def claimAt (s : State) (k : Nat) : Bool :=
  s.kiln.nodes.any (fun n => (List.range n.cords).any (fun c => claimIdx s n c && kilnFor s c == some k)) ||
    s.kiln.passHolds.any (fun p => p.admitted && !p.closed && (match entryAt s p.plan with
      | some e => (List.range (cordsNow s e)).any (fun c => kilnFor s c == some k)
      | none => false))

/-- A message waits for the plan engine. -/
def messageWaits (s : State) : Bool :=
  (s.inbox ++ s.fabric.items.map (fun it => it.item)).any (fun a => match a.body with
    | .mgmt _ => true
    | .ctrl _ => true
    | _ => false)

/-- A domain holds a cord, flit, beat, open claim or pending retry (R348). -/
def busyDom (s : State) (d : Nat) : Bool :=
  let opensAt := fun (f : NodeInst → OpenCord → Bool) => s.kiln.nodes.any (fun n => n.opens.any (fun o => f n o))
  let atStop := fun (u : Nat) => s.fabric.items.any (fun it => it.src == stopOf u || it.dests.contains (stopOf u))
  if 1 ≤ d ∧ d ≤ 16 then
    s.leaves.any (fun p => segOf p.1 + 1 == d && (!p.2.fireQ.isEmpty || p.2.reading.isSome || p.2.writing.isSome ||
      !p.2.recQ.isEmpty || !p.2.landQ.isEmpty || !p.2.held.isEmpty || !p.2.restoreQ.isEmpty)) ||
    opensAt (fun n _ => n.node.stage.val == 0 && n.node.seg.val + 1 == d) || atStop (unitSeg (d - 1)) ||
      s.inbox.any (fun a => waitsForSeg s a (d - 1))
  else if 17 ≤ d ∧ d ≤ 24 then
    opensAt (fun n o => n.node.stage.val != 0 && kilnFor s o.idx == some (d - 17)) || claimAt s (d - 17) || atStop (unitKiln (d - 17)) ||
      s.inbox.any (fun a => waitsForKiln s a (d - 17))
  else if 25 ≤ d ∧ d ≤ 32 then s.kiln.used.any (fun p => p.1 / 384 == d - 25) || claimAt s (d - 25)
  else if 33 ≤ d ∧ d ≤ 56 then
    let k := if d ≤ 50 then d - 33 else d - 51 + 18
    linkBusy (linkAt s k) || (smGet Injector.init s.inject.units k).reorder.isSome || atStop (unitLink k) || s.inbox.any (fun a => match a.src with
      | .link l _ => linkNo l == k && a.buf.isNone
      | _ => false)
  else if d = 57 then messageWaits s
  else if d = 58 then atStop unitFS || s.inbox.any (fun a => match a.body with
    | .root _ => true
    | _ => false)
  else if d = 59 then s.fabric.items.any (fun it => it.dests.any (fun x => eastStop x != eastStop it.src))
  else if d = 60 ∨ d = 61 then s.fabric.flight.any (fun p => !p.2.isEmpty) || s.fabric.lanes.any (fun p => !p.2.isEmpty)
  else false

/-- A domain may cool, the idle time aside (R348). -/
def mayCool (s : State) (d : Nat) : Bool :=
  implemented s d && warm s d && !preheated s d && !busyDom s d && !keepWarm s d

/-! ### Pre-heat and arming (R169, R346, R351) -/

/-- The tick of a plan pre-heat: launch + EST_START - PREHEAT_LEAD, or launch + AT (R169). -/
def preheatTick (s : State) (e : PlanEntry) : Int :=
  if eType e = 0 then (s.step.launch.toNat : Int) + eEst e - eLead e else (s.step.launch.toNat : Int) + ePreAt e

/-- The entries that raise a plan pre-heat here in the coming step (R169). -/
def preheatsOf (s : State) : List PlanEntry :=
  (planEntries s).filter (fun e => eActive e (stepNo s) &&
    (if eType e = 0 then decide (eLead e ≠ 0) && !(preheatDoms s e).isEmpty
     else decide (ePreInst e = 0xFFFFFF) || decide (ePreInst e = me s)))

/-- Raise the plan pre-heat of an entry: its domains are requested, and a PREHEAT entry's are held (R168, R169, R345). -/
def raisePreheat (e : PlanEntry) (s : State) : State :=
  let due := s.power.preheatDue.filter (fun p => p.1 != eIdx e)
  if eType e = 0 then
    let m := domMask (preheatDoms s e)
    requestDoms (preheatDoms s e)
      { s with power := { s.power with preheatDue := due, preheats := s.power.preheats ++ [(eIdx e, m)] } }
  else
    let m := ePreMask e
    requestDoms (maskDoms m)
      { s with power := { s.power with
          preheatDue := due, holds := s.power.holds.filter (fun p => p.1 != eIdx e) ++ [(eIdx e, m, s.time.tick.toNat)] } }

/-- Raise the open-lead request (R346); it ends a gap bank. -/
def raiseLead (s : State) : State :=
  requestDoms (openDoms s) { s with power := { s.power with leadRaised := true, gapBanked := false } }

/-- The open lead's tick has come. -/
def leadDue (s : State) : Bool := decide (s.step.launch.toNat ≤ s.time.tick.toNat + s.power.openLead.toNat)

/-- The launch tick lies at least OPEN_LEAD + 1,000 ticks ahead (R351). -/
def farLaunch (s : State) : Bool := decide (s.time.tick.toNat + s.power.openLead.toNat + 1000 ≤ s.step.launch.toNat)

/-- A gap bank: every domain outside the keep-warm set cools at once, the clocking domains last (R351). The seam bridge cools with the east
clock, which it no longer needs. -/
def gapBank (s : State) : State :=
  let s1 := forEach (blockDoms.filter (fun d => d != 60 && d != 61)) s (fun d t => if mayCool t d then leaveDom false d t else t)
  let s2 := if mayCool s1 61 && !busyDom s1 59 && !preheated s1 59 then leaveDom false 61 (leaveDom false 59 s1) else s1
  { s2 with power := { s2.power with gapBanked := true } }

/-- The PREHEAT HOLDs that outlast an attempt: those with a HOLD of their own; a HOLD of 0 ends as the step closes (R168). -/
def holdsLeft (s : State) : List (Nat × BitVec 64 × Nat) :=
  s.power.holds.filter (fun p => match entryAt s p.1 with
    | some e => ePreHold e != 0
    | none => false)

/-- The instance enters ARMED for a launch tick (R176, R179): the step's pre-heats are set, those whose tick has passed are raised at
once, as is the open lead (R169, R346), and a launch far enough ahead makes a gap bank (R351). -/
def enterArmed (launch : Word) (s : State) : State :=
  let s1 := { s with step := { s.step with state := .armed, launch := launch },
                     power := { s.power with preheats := [], holds := holdsLeft s, preheatDue := [], leadRaised := false, gapBanked := false } }
  let es := preheatsOf s1
  let now : Int := s1.time.tick.toNat
  let s2 := { s1 with power := { s1.power with preheatDue := es.map (fun e => (eIdx e, preheatTick s1 e)) } }
  let s3 := if farLaunch s2 then gapBank s2 else s2
  let s4 := forEach (es.filter (fun e => decide (preheatTick s1 e ≤ now))) s3 raisePreheat
  if leadDue s4 then raiseLead s4 else s4

/-- OPEN_LEAD ticks before the launch tick the sequencer requests D57, D59 and the segment domains of the step (R346). -/
def execOpenLead (s : State) : Host.Outcome State Fault Refusal :=
  done s (if s.step.state == .armed && !s.power.leadRaised && leadDue s then raiseLead s else s)

/-- At its tick the plan engine raises an entry's pre-heat (R169). -/
def execPlanPreheat (plan : BitVec 12) (s : State) : Host.Outcome State Fault Refusal :=
  done s (match s.power.preheatDue.find? (fun p => p.1 == plan.toNat), entryAt s plan.toNat with
    | some p, some e => if p.2 ≤ (s.time.tick.toNat : Int) then raisePreheat e s else s
    | _, _ => s)

/-- The HOLD of a PREHEAT entry expires after its ticks; a HOLD of 0 lasts until the step closes (R168). -/
def execPreheatHoldEnd (plan : BitVec 12) (s : State) : Host.Outcome State Fault Refusal :=
  done s (match entryAt s plan.toNat with
    | some e => if ePreHold e = 0 then s
        else { s with power := { s.power with holds := s.power.holds.filter (fun p =>
            p.1 != plan.toNat || decide (s.time.tick.toNat < p.2.2 + ePreHold e)) } }
    | none => s)

/-- Work that reaches a BANKED unit raises a demand request and waits (R347); a request already raised is not counted again. -/
def demand (d : Nat) (s : State) : State :=
  if domSt s d != .banked || (dom s d).wanted then s
  else
    let p := { s.power with demandWakes := satAdd s.power.demandWakes 1,
                            coldPathWaits := if running s then satAdd s.power.coldPathWaits 1 else s.power.coldPathWaits,
                            coldSince := if running s then smSet 0 s.power.coldSince d (s.time.tick.toNat + 1) else s.power.coldSince }
    requestDom d { s with power := p }

/-- A cord waits for the kiln unit whose home bank this is, and no working bank is WARM to hold it. -/
def bankWanted (s : State) (b : Nat) : Bool :=
  s.kiln.bankWorking.getLsbD b && busyDom s (17 + b)

/-- DEMAND_WAKE (R347): work has reached the units of a domain. -/
def execDemandWake (d : Fin 64) (s : State) : Host.Outcome State Fault Refusal :=
  let n := d.val
  done s (if busyDom s n || (decide (25 ≤ n) && decide (n ≤ 32) && bankWanted s (n - 25)) then demand n s else s)

/-- A domain that has been idle for COOL_IDLE ticks cools; a COOL_IDLE of 0 disables cooling (R348). -/
def execCool (d : Fin 64) (s : State) : Host.Outcome State Fault Refusal :=
  done s (if s.power.coolIdle != 0 && mayCool s d.val then leaveDom false d.val s else s)

/-! ### Kindling's use of the sequencer (R304, R335) -/

/-- The domains that stage 1 of kindling requests (R304). -/
def stage1Doms : List Nat := [25, 26, 27, 28, 29, 30, 31, 32, 57, 60, 61]

/-- Stage 1 ends when every one of them has been granted and is WARM. -/
def stage1Check (s : State) : State :=
  if s.kindle.state == .kindling && s.kindle.stage == 1 && stage1Doms.all (fun d => warm s d) then
    { s with kindle := { s.kindle with stage := 2 } }
  else s

/-- Everything that came from the image is dropped, with kiln memory, the leaf tables, the member and group tables, the step number and the seed
(R333); retirement records and every corrected-error count stay (R205, R299, R333, R354). DESIGN CHOICE, UNSAFE (log 94): a leaf's request that
waits for its grant is withdrawn with the leaf's state; R126 is silent there. -/
def dropImage (s : State) : State :=
  { s with
    image := none,
    leaves := [], shadows := [], inbox := [],
    tables := State.reset.tables,
    fabric := State.reset.fabric,
    links := s.links.filterMap (fun p => let l := LinkSt.init p.1
      some (p.1, { l with flowSel := p.2.flowSel })) |>.filter (fun p => p.2 ≠ LinkSt.init p.1),
    step := { State.reset.step with lastOutcome := s.step.lastOutcome, lastFlags := s.step.lastFlags, seen := s.step.seen,
                                    lastUnclean := s.step.lastUnclean, lastFirstNf := s.step.lastFirstNf,
                                    lastDigest := s.step.lastDigest },
    kiln := { State.reset.kiln with
      unitWorking := s.kiln.unitWorking, unitWarn := s.kiln.unitWarn, unitPredicted := s.kiln.unitPredicted,
      bankWorking := s.kiln.bankWorking, bankWarn := s.kiln.bankWarn, bufRetired := s.kiln.bufRetired,
      scrubPos := s.kiln.scrubPos, wordCe := s.kiln.wordCe, bankCe := s.kiln.bankCe, bankUe := s.kiln.bankUe,
      bankDue := s.kiln.bankDue, bankDueNext := s.kiln.bankDueNext },
    faults := { State.reset.faults with
      retired := s.faults.retired,
      pending := s.faults.pending, spliceTile := s.faults.spliceTile, recoveryLimit := s.faults.recoveryLimit, pool := s.faults.pool },
    kindle := { s.kindle with discovered := false, header := [], imageBytes := [], reread := false, spares := 0, logical := [], durations := [],
                              skews := [],
                              peerSeen := [], oldPorts := (s.image.map (fun im => im.ports)).getD s.kindle.oldPorts },
    power := { s.power with holds := [], preheats := [], preheatDue := [], leadRaised := false, gapBanked := false, coldSince := [] } }

/-- The unit whose ring stop lies in a domain. -/
def stopUnit (d : Nat) : Option Nat :=
  if 1 ≤ d ∧ d ≤ 16 then some (unitSeg (d - 1))
  else if 17 ≤ d ∧ d ≤ 24 then some (unitKiln (d - 17))
  else if 33 ≤ d ∧ d ≤ 50 then some (d - 33)
  else if 51 ≤ d ∧ d ≤ 56 then some (0x20 + (d - 51))
  else if d = 58 then some unitFS
  else none

/-- What waits at a ring stop is lost with its domain; what has a flit on a ring is void, and discarded where it arrives (R273). -/
def loseStop (d : Nat) (items : List RingItem) : List RingItem :=
  match stopUnit d with
  | none => items
  | some u => (items.filter (fun it => it.src != stopOf u || decide (it.arrived < it.sent.length))).map (fun it =>
      if it.src = stopOf u then { it with void := true, item := { it.item with buf := none } } else it)

/-- A captured word belongs to a domain: by its address, or as a copy of a port's hall flow counters (R436, R437). -/
def capturedIn (d off : Nat) : Bool :=
  regDomain off == some d ||
    (decide (33 ≤ d) && decide (d ≤ 50) && decide (0x2000000 + (d - 33) * 65 * 16 ≤ off) && decide (off < 0x2000000 + (d - 32) * 65 * 16))

/-- A domain that is OFF holds no state (R337): the registers, counters and captured records of its units, what waits at its ring stop, a port's
link and injector, a segment's leaves and tally shadow, D57's digest tables and D63's tables are lost. Retirement and error records lie in
D0 (R354). -/
def loseOff (d : Nat) (s : State) : State :=
  let kept := fun (off : Nat) => regDomain off != some d || ctrKept off
  let gone := (s.fabric.items.filter (fun it => (stopUnit d).any (fun u => it.src == stopOf u))).filterMap (fun it => it.item.buf)
  let s0 := forEach gone s giveBuf
  let s1 := { s0 with
    ctr := s.ctr.filter (fun p => kept p.1),
    freeze := { s.freeze with captured := s.freeze.captured.filter (fun p => !capturedIn d p.1) },
    leaves := s.leaves.filter (fun p => segOf p.1 + 1 != d),
    shadows := s.shadows.filter (fun p => p.1 + 1 != d),
    fabric := { s.fabric with items := loseStop d s.fabric.items },
    step := if d = 57 then { s.step with digestCur := [], digestPrev := [] } else s.step,
    tables := if d = 63 then State.reset.tables else s.tables }
  if 33 ≤ d ∧ d ≤ 56 then
    let k := if d ≤ 50 then d - 33 else d - 51 + 18
    setLink k (fun l => { LinkSt.init k with state := l.state, failReason := l.failReason, role := l.role, standsFor := l.standsFor })
      { s1 with inject := { s1.inject with units := smSet Injector.init s1.inject.units k Injector.init } }
  else s1

/-- Kindling fails (R335): links stop, every domain but D0, D62 and D63 is released, the failure is recorded and logged, the fault line
rises, and the state is COLD. -/
def kindleFail (code section_ index : Nat) (s : State) : State :=
  let s1 := forEach blockDoms (dropImage s) (fun d t => loseOff d (leaveDom true d t))
  let s2 := { s1 with kindle := { s1.kindle with state := .cold, stage := 0, failCode := BitVec.ofNat 8 code,
                                                 failSection := BitVec.ofNat 4 section_, failIndex := BitVec.ofNat 16 index },
                      power := { s1.power with banked := false, waking := false, bankDrains := false } }
  otherSeen (logEv 0x0102 unitKindle code (section_ % 16 * 65536 + index % 65536) s2)

/-! ### Grants (R341 to R343, R448) -/

/-- Links resume after a wake (R353): a KX4-mode port that was UP before makes a fast retrain keeping equalisation, and every module that has
not failed retrains under UCIe. -/
def resumeLinks (s : State) : State :=
  let modules := ((List.range 6).filter (fun u =>
    ((modCfg s u).map (fun c => c.enabled)).getD false && (linkAt s (18 + u)).state != .failed)).map (18 + ·)
  let ports := s.kindle.keepEq.filter (fun k => decide (k < 18) && (linkAt s k).state != .failed)
  forEach (ports ++ modules) { s with kindle := { s.kindle with keepEq := [], peerSeen := [] } } (fun k t =>
    setLink k (fun l => if k < 18 then { l with state := if isEth t k then .training else .retraining }
      else { l with state := .training, rateGts := 0 }) t)

/-- A wake of the whole block ends when every domain that it woke is WARM (R353); one lost to a power fault is OFF. -/
def wakeCheck (s : State) : State :=
  if s.power.waking && blockDoms.all (fun d => domSt s d == .warm || domSt s d == .off || heldBanked s d) then
    logEv 0x0906 unitEmber 2 0 (resumeLinks { s with power := { s.power with waking := false, banked := false } })
  else s

/-- Ticks that cover 64 fast cycles at a throttle step. -/
def stepWindow (step : Nat) : Nat := ([4, 6, 8, 16][step]?).getD 16

/-- The clock of a half changes now, from one throttle step to another: 64 fast cycles before it and after it (R284, R355). -/
def noteThrottle (east : Bool) (old new : Nat) (s : State) : State :=
  let now := s.time.tick.toNat
  let l := smMod [] s.power.throttled (if east then 1 else 0)
    (fun l => l.filter (fun c => decide (now < c.1 + 1000000)) ++ [(now, stepWindow old, stepWindow new)])
  { s with power := { s.power with throttled := l } }

/-- Toggle a half's throttle acknowledge. -/
def toggleAck (east : Bool) (s : State) : State :=
  if east then { s with pins := { s.pins with thrAckE := !s.pins.thrAckE } }
  else { s with pins := { s.pins with thrAckW := !s.pins.thrAckW } }

/-- The number of a half in the arguments of events. -/
def halfNo (h : Half) : Nat :=
  match h with
  | .west => 0
  | .east => 1

/-- The unit of a half's clocking. -/
def unitClock (h : Half) : Nat := 0x60 + halfNo h

/-- An acknowledged change of a half's clock from a step: counted and logged. -/
def throttled (h : Half) (old code : Nat) (s : State) : State :=
  logEv 0x0903 (unitClock h) (halfNo h) code
    (noteThrottle (h == .east) old (if code ≤ 3 then code else old)
      (toggleAck (h == .east) { s with power := { s.power with throttleChanges := satAdd s.power.throttleChanges 1 } }))

/-- A code that is refused: acknowledged with the step in force and logged (R356). -/
def throttleRefused (h : Half) (code : Nat) (s : State) : State :=
  logEv 0x0904 (unitClock h) (halfNo h) code (toggleAck (h == .east) s)

/-- An east port or module is UP. -/
def eastLinkUp (s : State) : Bool := ((List.range 9).map (· + 9) ++ [21, 22, 23]).any (linkUp s)

/-- East-bound beats lie on the rings. -/
def eastBound (s : State) : Bool :=
  s.fabric.items.any (fun it => decide (it.arrived < it.sent.length) && it.dests.any eastStop) ||
    s.fabric.flight.any (fun p => p.2.any (fun fl => fl.cross.contains true)) || (List.range 8).any (fun r => !(laneAt s r true).isEmpty)

/-- The east clock stops and the seam closes (R356, R271). -/
def stopEast (s : State) : State :=
  throttled .east s.power.stepE.toNat 4 { s with power := { s.power with eastStopped := true, eastClosed := true, eastStopWaits := false } }

/-- A code takes effect on a half whose PLL runs (R355, R356): a running code sets the step and restarts a stopped east clock; the east stop
is refused while an east port or module is UP and waits for the east-bound beats; other codes are refused. Each is acknowledged, counted and
logged (R270). -/
def applyCode (h : Half) (code : BitVec 3) (s : State) : State :=
  let c := code.toNat
  if c ≤ 3 then match h with
    | .west => throttled .west s.power.stepW.toNat c { s with power := { s.power with stepW := code.setWidth 2 } }
    | .east => throttled .east s.power.stepE.toNat c
        { s with power := { s.power with stepE := code.setWidth 2, eastStopped := false, eastStopWaits := false } }
  else if c = 4 && h == .east && !eastLinkUp s then
    (if eastBound s then { s with power := { s.power with eastStopWaits := true } } else stopEast s)
  else throttleRefused h c s

/-- A code recorded while the half's PLL was stopped takes effect as the PLL locks (R356). -/
def recordedCode (h : Half) (s : State) : State :=
  match h with
  | .east => withSome s.power.codeE s (fun c t => applyCode .east c { t with power := { t.power with codeE := none } })
  | .west => withSome s.power.codeW s (fun c t => applyCode .west c { t with power := { t.power with codeW := none } })

/-- An east stop that waits is made once no east-bound beat lies on the rings, and refused where an east link has come UP meanwhile (R356). -/
def waitingStop (s : State) : State :=
  if !s.power.eastStopWaits then s
  else if eastLinkUp s then throttleRefused .east 4 { s with power := { s.power with eastStopWaits := false } }
  else if eastBound s then s
  else stopEast s

/-- A cold-path wait ends: logged with the ticks waited (R347). -/
def endColdWait (d : Nat) (s : State) : State :=
  let t := smGet 0 s.power.coldSince d
  if t = 0 then s
  else logEv 0x0905 unitEmber d (s.time.tick.toNat + 1 - t)
    { s with power := { s.power with coldSince := smSet 0 s.power.coldSince d 0 } }

/-- A power grant rises: the clock is enabled, the domain restored and isolation released, so it is WARM; a clocking domain waits for
its PLL (R341, R448). A domain that was to leave leaves now, and one whose half's clock is lost is banked and follows its clock (R338, R345).
D62 powered again starts its log from a zero fill (R410). -/
def execPdGntRise (d : Fin 64) (s : State) : Host.Outcome State Fault Refusal :=
  let x := dom s d.val
  done s (if !x.req || x.gnt || !implemented s d.val then s
    else if x.leave.isSome then
      wakeCheck (leaveDom (x.leave.getD false) d.val (setDom d.val (fun y => { y with gnt := true, leave := none }) s))
    else if ((clockDom d.val).map (fun c => !warm s c)).getD false then
      setDom d.val (fun y => { y with wanted := true }) (leaveDom false d.val (setDom d.val (fun y => { y with gnt := true }) s))
    else if d.val = 60 ∨ d.val = 61 then setDom d.val (fun y => { y with gnt := true, ret := false }) s
    else
      let s1 := endColdWait d.val (setDom d.val (fun y => { y with gnt := true, ret := false, st := .warm }) s)
      if d.val = 62 then { s1 with log := { s1.log with entries := [], writeSeq := 0, readSeq := 0, filling := true } }
      else wakeCheck (stage1Check s1))

/-- A power grant falls after its request was lowered: the exit is complete; a domain wanted meanwhile is requested again (R341,
R357). -/
def execPdGntFall (d : Fin 64) (s : State) : Host.Outcome State Fault Refusal :=
  let x := dom s d.val
  done s (if x.req || !x.gnt then s
    else
      let s1 := setDom d.val (fun y => { y with gnt := false, wanted := false }) s
      if x.wanted then requestDom d.val s1 else s1)

/-- What a lost domain costs (R343). D62 loses the log with its sequence counts, and is filled with zeros when it is powered again (R410). -/
def loseUnits (d : Nat) (s : State) : State :=
  if 1 ≤ d ∧ d ≤ 16 then dieFail 3 s
  else if 17 ≤ d ∧ d ≤ 24 then retireUnit (d - 17) s
  else if 25 ≤ d ∧ d ≤ 32 then retireBank (d - 25) 0 (loseBank (d - 25) s)
  else if 33 ≤ d ∧ d ≤ 50 then failLink (d - 33) 7 s
  else if 51 ≤ d ∧ d ≤ 56 then failLink (18 + (d - 51)) 7 s
  else if d = 62 then
    { s with log := { s.log with disabled := true, queue := [], entries := [], writeSeq := 0, readSeq := 0, filling := true } }
  else dieFail 4 s

/-- A power fault of a domain (R343): logged, the fault line raised, the step made unclean, and the domain's units failed. The domain is OFF, its
request lowered but for D0, D62 and D63 (R449); that of a kiln unit or bank rests BANKED, as every retired one's (R350). DEDUCED, UNSAFE
(log 24). -/
def powerFaultOf (d : Nat) (s : State) : State :=
  let s1 := setDom d (fun y => { y with gnt := false, st := .off, req := d == 0 || decide (62 ≤ d), wanted := false, leave := none }) s
  let s2 := if d = 60 then { s1 with power := { s1.power with pllW := false } }
    else if d = 61 then { s1 with power := { s1.power with pllE := false, eastClosed := true } } else s1
  let s3 := loseOff d (loseUnits d (raiseUnclean uPowerFault (otherSeen (logEv 0x0901 unitEmber d 0 s2))))
  if d = 60 ∨ d = 61 then stopHalf d s3
  else if 17 ≤ d ∧ d ≤ 32 then setDom d (fun y => { y with st := .banked, ret := true, req := false }) s3
  else s3

/-- PD_GNT falls while its request is high (R343). -/
def execPowerFault (d : Fin 64) (s : State) : Host.Outcome State Fault Refusal :=
  done s (if (dom s d.val).req && (dom s d.val).gnt && implemented s d.val then powerFaultOf d.val s else s)

/-- A PLL locks while its domain is granted: the clocking domain is WARM (R448); waiting requests of the half are raised, and in a wake
of the block every other banked domain once both PLLs have locked (R353). -/
def execPllLock (h : Half) (s : State) : Host.Outcome State Fault Refusal :=
  let d := match h with
    | .west => 60
    | .east => 61
  done s (if !(dom s d).gnt || domSt s d != .waking then s
    else
      let s1 := setDom d (fun y => { y with st := .warm }) s
      let s2 := match h with
        | .west => recordedCode h { s1 with power := { s1.power with pllW := true } }
        | .east => recordedCode h { s1 with power := { s1.power with pllE := true } }
      let s3 := requestWanted (endColdWait d s2)
      let s4 := if s3.power.waking && s3.power.pllW && s3.power.pllE then
          requestDoms (blockDoms.filter (fun x => (domSt s3 x == .banked || (domSt s3 x == .waking && (dom s3 x).leave.isSome)) &&
            !heldBanked s3 x)) s3 else s3
      wakeCheck (stage1Check s4))

/-- A PLL loses lock while its domain is WARM: a power fault of D60 or D61 (R448). -/
def execPllLockLost (h : Half) (s : State) : Host.Outcome State Fault Refusal :=
  let d := match h with
    | .west => 60
    | .east => 61
  done s (if warm s d then setDom d (fun y => { y with gnt := true }) (powerFaultOf d s) else s)

/-- A grant later than 200 ember cycles is counted once for its request (R342). -/
def execGrantLate (d : Fin 64) (cycles : Nat) (s : State) : Host.Outcome State Fault Refusal :=
  let x := dom s d.val
  done s (if x.req && !x.gnt && !x.lateCounted && decide (200 < cycles) then
      setDom d.val (fun y => { y with lateCounted := true })
        { s with power := { s.power with grantLate := satAdd s.power.grantLate 1 } }
    else s)

/-- A grant absent for 1 ms, 100,000 ember cycles: logged with its domain (R342); before READY, kindling fails with POWER (R304, R336). -/
def execGrantAbsent (d : Fin 64) (s : State) : Host.Outcome State Fault Refusal :=
  let x := dom s d.val
  done s (if !(x.req && !x.gnt) then s
    else if s.kindle.state == .kindling || s.kindle.state == .kindled || s.kindle.state == .locked then kindleFail 1 0 d.val s
    else logEv 0x0902 unitEmber d.val 100000 s)

/-! ### Throttling (R355, R356, R271) -/

/-- A change of a half's throttle code (R355): a running code takes effect at once, or at the next PLL lock; the east stop waits until
no east-bound beat lies on the rings (R356); other codes are refused. -/
def execThrottleChange (h : Half) (code : BitVec 3) (s : State) : Host.Outcome State Fault Refusal :=
  let c := code.toNat
  done s (match h with
    | .west => if c ≤ 3 ∧ !s.power.pllW then { s with power := { s.power with codeW := some code } } else applyCode .west code s
    | .east => if c ≤ 4 ∧ !s.power.pllE then { s with power := { s.power with codeE := some code } } else applyCode .east code s)

/-- After the east clock grant the bridge reopens each ring (R271). -/
def execSeamReopen (s : State) : Host.Outcome State Fault Refusal :=
  done s (if s.power.eastClosed && clockRuns s true then
      { s with power := { s.power with eastClosed := false, eastWanted := false } }
    else s)

/-! ### Banking and waking (R351, R353) -/

/-- Stop the links of a block that banks: those UP are remembered for the wake (R353), and hold nothing further. -/
def restLinks (s : State) : State :=
  let ups := (List.range 24).filter (linkUp s)
  forEach ups { s with kindle := { s.kindle with keepEq := ups } } (fun k t => setLink k (fun l => { l with state := .down }) t)

/-- The rings hold no flit, in flight or in a lane. -/
def ringsEmpty (s : State) : Bool := s.fabric.flight.all (fun p => p.2.isEmpty) && s.fabric.lanes.all (fun p => p.2.isEmpty)

/-- The block banks (R351): every domain of D1 to D61 becomes BANKED, the clocking domains last; records of a held capture stay in
retention. -/
def bankNow (s1 : State) : State :=
  let s2 := forEach (blockDoms.filter (fun d => d != 60 && d != 61)) s1 (fun d t =>
    if domSt t d == .warm || domSt t d == .waking then leaveDom false d t else t)
  let s3 := leaveDom false 60 (leaveDom false 61 s2)
  logEv 0x0906 unitEmber 1 0 { s3 with power := { s3.power with bankPending := false, banked := true, gapBanked := false, bankDrains := false } }

/-- A bank of the block begins (R351): its links issue nothing more, the rings empty, then it banks. -/
def bankBlock (s : State) : State :=
  let s1 := restLinks s
  if ringsEmpty s1 then bankNow s1 else { s1 with power := { s1.power with bankPending := true, bankDrains := true } }

/-- A bank that waited for the rings to empty (R351). -/
def bankDrained (s : State) : State := if s.power.bankDrains && ringsEmpty s then bankNow s else s

/-- A bank request (R351, R336, R357): while banked, or with a bank begun, it is ignored and counted; in READY with IDLE or HALTED it acts,
else it waits, before READY too. In an ARMED whose launch is far enough ahead it makes a gap bank at once. -/
def bankRequest (s : State) : State :=
  if s.power.banked || s.power.bankDrains then countIgnored 0x3008 s
  else if isReady s && (s.step.state == .idle || s.step.state == .halted) then bankBlock s
  else
    let s1 := { s with power := { s.power with bankPending := true } }
    if s.step.state == .armed && farLaunch s then gapBank s1 else s1

/-- A bank request that waited is acted on at IDLE or HALTED (R351). -/
def bankIfPending (s : State) : State :=
  if s.power.bankPending && !s.power.bankDrains && isReady s && (s.step.state == .idle || s.step.state == .halted) then bankBlock s else s

/-- Wake a banked block: the clocking domains first (R353). -/
def wakeBlock (s : State) : State := requestDoms [60, 61] { s with power := { s.power with waking := true } }

/-- A wake request; outside the banked state it is ignored and counted (R353). -/
def wakeRequest (s : State) : State :=
  if s.power.banked && !s.power.waking then wakeBlock s else countIgnored 0x3008 s

/-- EMBER (R354): links rest, every domain of D1 to D61 is turned OFF, everything of the image is lost and the state is COLD. -/
def emberBlock (s : State) : State :=
  let s1 := forEach blockDoms (dropImage (restLinks s)) (fun d t => loseOff d (leaveDom true d t))
  logEv 0x0906 unitEmber 0 0
    { s1 with kindle := { s1.kindle with state := .cold, stage := 0, keepEq := [], oldPorts := [], afterWake := false },
              power := { s1.power with banked := false, bankPending := false, waking := false, bankDrains := false } }

/-- An ember request: in READY with IDLE or HALTED, or while banked; otherwise refused and logged (R354). -/
def emberRequest (s : State) : State :=
  if s.power.banked || (isReady s && (s.step.state == .idle || s.step.state == .halted)) then emberBlock s
  else logEv 0x0106 unitEmber 0x3008 (stepCode s) s

/-- A host write to KX_POWER_CTRL: COOL_IDLE and OPEN_LEAD are set, then the requests act; BANK_REQ with WAKE_REQ in one write is
ignored and counted (R357). -/
def writePowerCtrl (v : Word) (s : State) : State :=
  let s1 := { s with power := { s.power with coolIdle := BitVec.ofNat 16 (fieldOf v 32 16), openLead := BitVec.ofNat 16 (fieldOf v 16 16) } }
  if bitOf v 63 && bitOf v 62 then countIgnored 0x3008 s
  else
    let s2 := if bitOf v 63 then bankRequest s1 else s1
    let s3 := if bitOf v 62 then wakeRequest s2 else s2
    if bitOf v 61 then emberRequest s3 else s3

/-- BANK_REQ of KX_POWER_CTRL (R351). -/
def execBankReq (v : Word) (s : State) : Host.Outcome State Fault Refusal := done s (hostWrite s (writePowerCtrl v))

/-- WAKE_REQ of KX_POWER_CTRL (R353). -/
def execWakeReq (v : Word) (s : State) : Host.Outcome State Fault Refusal := done s (hostWrite s (writePowerCtrl v))

/-- EMBER_REQ of KX_POWER_CTRL (R354). -/
def execEmberReq (v : Word) (s : State) : Host.Outcome State Fault Refusal := done s (hostWrite s (writePowerCtrl v))

end Sys2Proof.Machine
end

