-- ==== Sys2Proof/Machine/LeafOps.lean ====
section
/-! DEFINITION. LeafOps.lean: the operations of a leaf interface: counters, firing, permits (R128 to R135, R152), staging addresses and
read beats (R136 to R140), landing addresses and write beats (R145 to R148). -/

namespace Sys2Proof.Machine

/-- A unit of a fast-clocked domain works: its domain is WARM and its half's clock runs (R338, R356). -/
def live (s : State) (d : Nat) : Bool := warm s d && clockRuns s (eastDom d)

/-- The leaf interface of a tile works: a full-configuration instance with the tile's segment live. -/
def leafLive (s : State) (t : Nat) : Bool := !s.params.hearthOnly && live s (segOf t + 1)

/-- The positions of a half whose leaves are clocked at its open. DESIGN CHOICE, UNSAFE (log 83): a leaf whose segment domain is not WARM at
the open, and wakes later in the step, is not opened in that step; R449 only clamps it while its domain is not WARM. DESIGN
CHOICE, UNSAFE (log 92): the leaf of a tile that holds no logical position, an idle spare or a retired tile, does not open either (R156). -/
def positionsOf (s : State) (east : Bool) : List (Nat × Nat) :=
  (List.range s.kindle.logical.length).filterMap (fun i => (physOf s i).bind (fun t =>
    if segEast (segOf t) = east ∧ leafLive s t then some (i, t) else none))

/-- The position (logical tile index) that a physical tile holds; 0 where it holds none. -/
def tileIdx (s : State) (t : Nat) : Nat := (logicalOf s t).getD 0

/-! ### Firing (R131, R133) -/

/-- The cord index of the `i`-th cord that a trigger entry sends: from FIRST_CORD up, or the `i`-th data cord of the position's slot of a
GATHER (R101, R103). -/
def trigCord (e : PlanEntry) (pos : Nat) (w1 : Word) (i : Nat) : Nat :=
  if eKind e = 4 then pos * eQ e + (trFirst w1 + i) % eQ e else (trFirst w1 + i) % 65536

/-- A trigger entry fires for every threshold that its counter has passed: the entry, its cords in order, and whether THRESHOLD passed
0xFFFF_FFFF. `fuel` bounds the firings by the cords left. -/
def fireLoop (e : PlanEntry) (pos v : Nat) : Nat → Trig → List Firing → Trig × List Firing × Bool
  | 0, tr, out => (tr, out, false)
  | fuel + 1, tr, out =>
    if tr.armed && decide (tr.threshold ≤ v) then
      let n := min (max 1 (trPerFire tr.w1)) (trCount tr.w1 - tr.issued)
      let new := (List.range n).map (fun i =>
        ({ slot := tr.slot, plan := eIdx e, cord := trigCord e pos tr.w1 (tr.issued + i), kind := .data } : Firing))
      let th := tr.threshold + trStride tr.w0
      let issued := tr.issued + n
      let ovf := decide (0xFFFFFFFF < th)
      let tr1 := { tr with threshold := th, issued := issued, fired := true, preheated := false }
      if trCount tr.w1 ≤ issued || trStride tr.w0 == 0 || ovf then ({ tr1 with armed := false }, out ++ new, ovf)
      else fireLoop e pos v fuel tr1 (out ++ new)
    else (tr, out, false)

/-- One trigger entry in one cycle. -/
def fireOne (s : State) (t : Nat) (l : Leaf) (tr : Trig) : Trig × List Firing × Bool :=
  match entryAt s (trPlan tr.w0) with
  | none => (tr, [], false)
  | some e => fireLoop e ((positionNow s e (tileIdx s t)).getD 0) (smGet 0 l.counters (trCounter tr.w1)).toNat (trCount tr.w1) tr []

/-- The span of R134: THRESHOLD as loaded before the first firing, STRIDE after it. -/
def trigSpan (tr : Trig) : Nat := if tr.fired then trStride tr.w0 else trThreshold tr.w0

/-- A counter has come 75% of the way to an armed entry's next threshold (R134). -/
def preheatMet (l : Leaf) (tr : Trig) : Bool :=
  tr.armed && !tr.preheated && decide (tr.threshold - trigSpan tr / 4 ≤ (smGet 0 l.counters (trCounter tr.w1)).toNat)

/-- A permit that its counter meets stays met for the rest of the step (R152). -/
def meetPermit (l : Leaf) (x : Land) : Land :=
  if lePermitEn x.w0 && decide (lePermitValue x.w1 ≤ (smGet 0 l.counters (lePermitCounter x.w0)).toNat) then { x with met := true }
  else x

/-- GATHER samples its length counter as L in the cycle of the first firing that issues a data cord of the slot (R102). -/
def sampleL (s : State) (l : Leaf) (fires : List Firing) : SMap Nat :=
  fires.foldl (fun m f => match entryAt s f.plan with
    | some e => if eKind e = 4 && !m.any (fun p => p.1 == f.plan) then smPut m f.plan (smGet 0 l.counters (eLenCounter e)).toNat else m
    | none => m) l.gatherL

/-- Raise a counter pre-heat for an entry's path (R134, R345). -/
def counterPreheat (t : Nat) (tr : Trig) (s : State) : State :=
  let plan := trPlan tr.w0
  match entryAt s plan with
  | none => s
  | some e =>
    let ds := counterDoms s e (segOf t) (trigCord e ((positionNow s e (tileIdx s t)).getD 0) tr.w1 tr.issued)
    requestDoms ds { s with power := { s.power with preheats := s.power.preheats ++ [(plan, domMask ds)] } }

/-- What a leaf does in a cycle in which its counters or entries have changed: permits, firings in ascending entry number, and
pre-heats. -/
def scanLeaf (t : Nat) (s : State) : State :=
  let l := leafAt s t
  let res := l.trigs.map (fireOne s t l)
  let fires := (res.map (fun r => r.2.1)).flatten
  let trigs := res.map (fun r => r.1)
  let hot := l.trigs.filter (preheatMet l) ++
    trigs.filter (fun tr => preheatMet l tr && tr.fired && l.trigs.any (fun x => x.slot == tr.slot && x.issued != tr.issued))
  let s1 := setLeaf t (fun x => { x with
    trigs := trigs.map (fun tr => if preheatMet l tr then { tr with preheated := true } else tr),
    lands := x.lands.map (meetPermit l),
    gatherL := sampleL s l fires,
    fireQ := x.fireQ ++ fires }) s
  let s2 := forEach (res.filter (fun r => r.2.2)) s1 (fun r u =>
    logEv 0x0704 (unitSeg (segOf t)) (argTP (tileIdx s t) (trPlan r.1.w0)) r.1.slot u)
  forEach hot s2 (counterPreheat t)

/-- Add to a counter of a leaf; it holds at 0xFFFF_FFFF and that is logged (R128). Entries then see the new value. -/
def bump (t c k : Nat) (s : State) : State :=
  let v := (smGet 0 (leafAt s t).counters c).toNat + k
  let s1 := setLeaf t (fun l => { l with counters := smSet 0 l.counters c (satOf 32 v) }) s
  scanLeaf t (if 0xFFFFFFFF < v then logEv 0x0703 (unitSeg (segOf t)) (argTP (tileIdx s t) 0) c s1 else s1)

/-! ### Staging (R136 to R140) -/

/-- The staging address of row 0 of cord `j` of an entry's slot sequence, past the mask line, and whether there is a mask line (R138). -/
def stagingBase (e : PlanEntry) (ring : Word) (j : Nat) : Nat × Bool :=
  let u := if eKind e = 4 then min (eF e) (eCap e) else min (eF e) (eRows e)
  let ml := if srMaskLine ring then 64 else 0
  let stride := roundUp (ml + u * rowPitch (eMl e) (eFmt e)) 64
  (srBase ring + j % srSlots ring * stride + ml, srMaskLine ring)

/-- The beat address [21:6] of a byte of the 4 MiB scratchpad (R125). -/
def beatAddr (x : Nat) : Nat := x / 64 % 65536

/-- The read beats of the present rows of a cord: a half is enabled only where it belongs to a present row (R140). -/
def rowBeats (base pitch rows mask : Nat) : List RdBeat :=
  (List.range (ceilDiv (rows * pitch) 64)).filterMap (fun b =>
    let on := fun (h : Nat) => let r := (64 * b + 32 * h) / pitch
      decide (r < rows) && mask.testBit r
    let half : BitVec 2 := (if on 0 then 1 else 0) ||| (if on 1 then 2 else 0)
    if half = 0 then none else some { addr := beatAddr (base + 64 * b), half := half, isMask := false })

/-- The rows of a cord that may be present before its mask line is known: all of them, or in a GATHER those below min(L, K) (R102). -/
def offeredMask (e : PlanEntry) (l : Leaf) (c rows : Nat) : Nat :=
  if eKind e = 4 then
    let lim := min (smGet 0 l.gatherL (eIdx e)) (eCap e)
    let first := c % eQ e * eF e
    2 ^ (min rows (lim - first)) - 1
  else 2 ^ rows - 1

/-- The bytes of a row as read: its pitch lies in beats already returned. -/
def rowRead (got : List (Nat × List Byte)) (addr len : Nat) : List Byte :=
  let one := fun (b : Nat) => match got.find? (fun p => p.1 == b) with
    | some p => padTo p.2 64
    | none => zeros 64
  slice (((List.range (ceilDiv (addr % 64 + len) 64)).map (fun i => one (beatAddr (addr + 64 * i)))).flatten) (addr % 64) len

/-! ### Landing (R145 to R148) -/

/-- The finishing descriptor of an entry. -/
def descOf (s : State) (e : PlanEntry) : Word × Word :=
  match s.image with
  | some im => (im.descriptors[eFinish e]?).getD (0, 0)
  | none => (0, 0)

/-- The format in which cord `c` of an entry lands (R103, R112). -/
def landedFmt (s : State) (e : PlanEntry) (c : Nat) : Nat :=
  if eKind e = 4 ∧ posNow s e * eQ e ≤ c then 5
  else if eKind e ≤ 4 then outFormat (descOf s e) (eFmt e)
  else if eKind e = 6 then 5
  else eFmt e

/-- The bank of a landing entry in a step (R145). -/
def bankBase (e : PlanEntry) (w0 w1 : Word) (step : Nat) : Nat :=
  let b := match leBankMode w0 with
    | 0 => 0
    | 1 => 1
    | _ => step / ePeriod e % 2
  leBase w0 + b * leBankOffset w1

/-- The addresses of cord `c` of an entry in a landing bank: its record and its row 0 (R147). `k` is the position. -/
def landAddrs (s : State) (e : PlanEntry) (w0 w1 : Word) (k step c : Nat) : Nat × Nat :=
  let bank := bankBase e w0 w1 step
  let p := posNow s e
  let r := landRange e p k
  let i := c - r.1
  let f := landedFmt s e r.1
  let u := if eKind e = 4 then min (fullRows (eMl e) f) (eCap e) else min (fullRows (eMl e) f) (eRows e)
  let sz := if eKind e = 4 then u * rowPitch (eMl e) f else roundUp (u * rowPitch (eMl e) f) 64
  let base := bank + 64 * r.2
  (bank + 64 * i,
   if eKind e = 4 ∧ p * eQ e ≤ c then base + p * eQ e * sz + (c - p * eQ e) * 16384 else base + i * sz)

/-- Data and byte enables of a run of rows at a pitch, cut in beats: pitch bytes beyond the row bytes stay unwritten (R137). -/
def beatsOfRows (base rb pitch : Nat) (kind : WrKind) (rows : List (List Byte)) : List WrBeat :=
  let off := base % 64
  let data := zeros off ++ (rows.map (fun r => padTo r pitch)).flatten
  let en := List.replicate off false ++ (rows.map (fun _ => List.replicate rb true ++ List.replicate (pitch - rb) false)).flatten
  (List.range (ceilDiv (off + rows.length * pitch) 64)).map (fun b =>
    { addr := beatAddr (base + 64 * b),
      be := ((en.drop (64 * b)).take 64).foldr (fun x acc => 2 * acc + (if x then 1 else 0)) 0,
      data := padTo (slice data (64 * b) 64) 64,
      kind := kind })

/-- A whole 64-byte write beat. -/
def fullBeat (addr : Nat) (kind : WrKind) (ws : List Word) : WrBeat :=
  { addr := beatAddr addr, be := BitVec.allOnes 64, data := (ws.map wordBytes).flatten, kind := kind }

/-- The landing record of a cord (Table: Landing record). -/
def landingRecord (addr : Nat) (c : Cord) : WrBeat :=
  fullBeat addr .record
    [c.w3, c.w4, c.w5, c.w6,
     putField 48 16 (cEpoch c) ||| putField 32 16 (cIdx c) ||| putField 16 16 (cRows c) ||| putField 0 16 (cFlags c),
     putField 48 12 (cPlan c) ||| putField 0 48 (cStep c), 0, 1]

/-- Every write of a landing: each row, absent ones included, in ascending order, then the record (R148, R149). -/
def landingBeats (s : State) (e : PlanEntry) (x : Land) (t : Nat) (c : Cord) : List WrBeat :=
  let f := landedFmt s e (cIdx c)
  let ml := eMl e && !(eKind e == 4 && f == 5)
  let rb := rowBytes ml f
  let a := landAddrs s e x.w0 x.w1 ((positionNow s e (tileIdx s t)).getD 0) (cStep c) (cIdx c)
  beatsOfRows a.2 rb (rowPitch ml f) .row (chunks rb (cRows c) c.payload) ++ [landingRecord a.1 c]

/-- The loaded landing entry of a leaf for a plan index (R145). -/
def landFor (l : Leaf) (plan : Nat) : Option Land := l.lands.find? (fun x => lePlan x.w0 == plan)

/-- Begin the next queued record, where nothing is being written (R175, R369). -/
def nextRecord (l : Leaf) : Leaf :=
  match l.writing, l.recQ with
  | none, w :: ws => { l with writing := some w, recQ := ws }
  | _, _ => l

/-- A tally record takes one landed cord (R407). -/
def tallyLand (slot c : Nat) (tick : Word) (l : Leaf) : Leaf :=
  { l with tally := l.tally.map (fun x =>
      if x.slot = slot ∧ x.status = 1 then
        let landed := if x.landed.contains c then x.landed else x.landed ++ [c]
        { x with landed := landed, lastTick := tick, status := if x.expected ≤ landed.length then 2 else 1 }
      else x) }

/-- A tally record counts a duplicate (R150, R155). -/
def tallyDup (plan : Nat) (l : Leaf) : Leaf :=
  { l with tally := l.tally.map (fun x => if x.plan = plan then { x with dups := satAdd x.dups 1 } else x) }

/-- The leaves of this die that land cord `c` of an entry: (physical tile, landing slot). -/
def landersHere (s : State) (e : PlanEntry) (c : Nat) : List (Nat × Nat) :=
  (logicalIdx s).filterMap (fun i =>
    if landsNow s e i then
      let r := landRange e (posNow s e) ((positionNow s e i).getD 0)
      if (eKind e = 5 ∨ (r.1 ≤ c ∧ c < r.1 + r.2)) then
        (physOf s i).bind (fun t => (landFor (leafAt s t) (eIdx e)).map (fun x => (t, x.slot)))
      else none
    else none)

/-- Every leaf of the die that lands cord `c` of an entry has landed it. -/
def allLanded (s : State) (e : PlanEntry) (c : Nat) : Bool :=
  (landersHere s e c).all (fun p => (leafAt s p.1).tally.any (fun x => x.slot == p.2 && x.landed.contains c))

end Sys2Proof.Machine
end

