-- ==== Sys2Proof/Machine/Claims.lean ====
section
/-! DEFINITION. Claims.lean: node instances, windows, claims, admission and the notices of a short step (R191 to R202). -/

namespace Sys2Proof.Machine

/-! ### Node instances -/

/-- The node instance of a plan index at a node. -/
def findNode (s : State) (plan : Nat) (n : NodeId) : Option NodeInst :=
  s.kiln.nodes.find? (fun x => x.plan == plan && decide (x.node = n))

/-- Change a node instance. -/
def modNode (plan : Nat) (n : NodeId) (f : NodeInst → NodeInst) (s : State) : State :=
  { s with kiln := { s.kiln with nodes := s.kiln.nodes.map (fun x => if x.plan = plan ∧ x.node = n then f x else x) } }

/-- Cord `c` goes up through a node: some child of it carries the cord. -/
def carries (s : State) (x : NodeInst) (c : Nat) : Bool :=
  match entryAt s x.plan with
  | none => false
  | some e => match entryGroup s e with
    | none => false
    | some g => !(cordChildren s e g x.node c).isEmpty

/-- Cord `c` comes down through a node: a member die below it lands the cord (R94). -/
def descends (s : State) (x : NodeInst) (c : Nat) : Bool :=
  match entryAt s x.plan with
  | none => false
  | some e => match entryGroup s e with
    | none => false
    | some g =>
      if x.node.stage.val = 0 then false
      else childLands e (argNow s e) g (x.node.stage.val - 1) x.node.coord.toNat c

/-- An instance computes cord `c` at a node: every cord at an L0 node, else those of its entry of the working list (R43); of these, the
cords that pass through the node at all. -/
def handlesBy (s : State) (inst : Nat) (x : NodeInst) (c : Nat) : Bool :=
  (decide (x.node.stage.val ≤ 1) || match entryAt s x.plan with
    | some e => siteOf s.kiln.places (eGroup e) (x.node.stage.val - 1) x.node.coord.toNat c == some inst
    | none => false) && (carries s x c || descends s x c)

/-- This instance computes cord `c` at a node. -/
def handles (s : State) (x : NodeInst) (c : Nat) : Bool := handlesBy s (me s) x c

/-- An open index of a node. -/
def findOpen (x : NodeInst) (c : Nat) : Option OpenCord := x.opens.find? (fun o => o.idx == c)

/-- An index counts among those still to close at a node: one that a change of placements has moved here counts from the first cord that is
re-sent for it, since the placement that had it may have finished it (R44, R45; log 88). -/
def counts (x : NodeInst) (c : Nat) : Bool := !x.closed.contains c && (!x.taken.contains c || (findOpen x c).isSome)

/-- The lowest index that an instance computes at a node and has not closed; C where there is none. -/
def lowestBy (s : State) (inst : Nat) (x : NodeInst) : Nat :=
  ((List.range x.cords).find? (fun c => handlesBy s inst x c && counts x c)).getD x.cords

/-- The lowest index that a node instance computes and has not closed; C where there is none (R193). -/
def lowestOf (s : State) (x : NodeInst) : Nat := lowestBy s (me s) x

/-- The lowest open index of a placement of the parent node `n`, as a child knows it: what it last advertised, else that with which it opened
(R193). -/
def parentLow (s : State) (x : NodeInst) (inst : Nat) (n : NodeId) : Nat :=
  match smGet 0 x.parentLowest inst with
  | 0 => lowestBy s inst { x with node := n, closed := [], taken := [] }
  | v + 1 => v

/-- Cord `c` lies below the node's lowest open index plus W (R193); an index that a change of placements has moved here finds a place among
the W that are open (R191, R202; log 88). -/
def inWin (x : NodeInst) (c : Nat) : Bool :=
  if x.taken.contains c then (findOpen x c).isSome || decide (x.opens.length < x.win) else decide (c < x.lowest + x.win)

/-- The instances that compute the child `k` of a node at stage `stage` (2 or more), with the level of the hop. -/
def childInsts (s : State) (g : GroupDef) (l k : Nat) : List Nat :=
  if l = 1 then [holderOf s k] else placesOf s g.num (l - 1) k

/-- A management message to an instance at a level, or to this instance itself. -/
def sendMgmt (inst level : Nat) (m : Msg) (s : State) : State :=
  if inst = me s then deliver { src := .self 0, vc := 4, body := .mgmt m } s else mgmtTo inst level m s

/-- The WINDOW message of a node's lowest open index (R223). -/
def mkWindow (s : State) (level plan lowest : Nat) : Msg :=
  { msgZero with m0 := putField 56 8 3 ||| putField 53 3 0 ||| putField 48 4 level ||| putField 36 12 plan ||| putField 0 16 lowest,
                 m1 := putField 16 48 (stepNo s) }

/-- A node's lowest open index has changed: WINDOW goes to the instances of its children over links (R193, R223). -/
def advertise (x : NodeInst) (lowest : Nat) (s : State) : State :=
  if x.node.stage.val ≤ 1 then s
  else match (entryAt s x.plan).bind (entryGroup s) with
    | none => s
    | some g =>
      let l := x.node.stage.val - 1
      let insts := ((childrenOf g l x.node.coord.toNat).flatMap (childInsts s g l)).eraseDups.filter (· != me s)
      forEach insts s (fun i t => ctrlTo i l (mkWindow t l x.plan lowest) t)

/-- One window-lead event for an entry in the attempt, when a child's offer lies beyond the node's window (R194). -/
def leadEvent (plan cord unit : Nat) (s : State) : State :=
  if s.kiln.nodes.any (fun x => x.plan == plan && x.leadLogged) then s
  else logEv 0x0404 unit (argPC plan cord) 0 (ctrAdd 0x30820 1
    { s with kiln := { s.kiln with nodes := s.kiln.nodes.map (fun x => if x.plan = plan then { x with leadLogged := true } else x) } })

/-! ### Admission (R195, R196, R201) -/

/-- The buffers that an entry's claims still ask for here. -/
def claimAsked (s : State) (plan : Nat) : Nat :=
  (s.kiln.nodes.foldl (fun a x => if x.plan = plan && !x.admitted then a + x.claim else a) 0) +
    s.kiln.passHolds.foldl (fun a p => if p.plan = plan && !p.admitted then a + p.claim else a) 0

/-- Admit every claim of an entry together. The claim of a node instance that computes no cord index closes at once (R196). -/
def admitEntry (plan : Nat) (s : State) : State :=
  { s with kiln := { s.kiln with
      nodes := s.kiln.nodes.map (fun x => if x.plan = plan then
        { x with admitted := true, claim := if x.cords ≤ x.lowest then 0 else x.claim,
                 lows := if x.admitted then x.lows else [lowNow s x.lowest] } else x),
      passHolds := s.kiln.passHolds.map (fun p => if p.plan = plan then { p with admitted := true } else p),
      admitted := s.kiln.admitted ++ [plan] } }

/-- A notice of a short step (R200): type 0x03 ADMIT_NOTICE or 0x04 ARM_NOTICE, with the plan index, the node that it is for and, in an
admission notice, the child that sends it. The manual gives no body; this one is the model's own (log 30). -/
def mkNotice (s : State) (type dest plan level coord child : Nat) : Msg :=
  { msgZero with m0 := mkM0 s type dest,
                 m1 := putField 52 12 plan ||| putField 48 4 level ||| putField 32 16 coord ||| putField 16 16 child,
                 m2 := stepContext s }

/-- The leaves of this die set ARMED on an entry's triggers, which fire at once for every threshold passed (R200); those of a half that
opens later load them armed. -/
def armLeaves (plan : Nat) (s : State) : State :=
  forEach (s.leaves.filter (fun p => (if segEast (segOf p.1) then s.step.openE else s.step.openW) && p.2.trigs.any (fun tr => trPlan tr.w0 == plan)))
    { s with kiln := { s.kiln with armed := s.kiln.armed ++ [plan] } } (fun p t =>
    scanLeaf p.1 (setLeaf p.1 (fun l => { l with trigs := l.trigs.map (fun tr =>
      if trPlan tr.w0 = plan ∧ tr.issued < trCount tr.w1 then { tr with armed := true } else tr) }) t))

/-- A node passes the arm notice on, once: to every working placement of each child, or to its own leaves (R200). -/
def armDown (plan : Nat) (n : NodeId) (s : State) : State :=
  match findNode s plan n, (entryAt s plan).bind (entryGroup s) with
  | some x, some g =>
    if x.armSent then s
    else
      let s1 := modNode plan n (fun y => { y with armSent := true }) s
      let l := n.stage.val - 1
      if l = 0 then armLeaves plan s1
      else forEach (childrenOf g l n.coord.toNat) s1 (fun k t =>
        forEach (childInsts s g l k) t (fun i u => sendMgmt i l (mkNotice u 4 i plan (l - 1) k 0) u))
  | _, _ => s

/-- A node holds an admission notice from every working placement of every child, and its own claim is admitted or 0 (R200). -/
def noticeReady (s : State) (g : GroupDef) (x : NodeInst) : Bool :=
  let l := x.node.stage.val - 1
  (x.admitted || x.claim == 0) &&
    (l == 0 || (childrenOf g l x.node.coord.toNat).all (fun k => (childInsts s g l k).all (fun i => x.notices.contains (k, i))))

/-- Send what admission notices an entry's nodes here now owe; the root arms downward instead (R200). -/
def sendNotices (plan : Nat) (s : State) : State :=
  if !s.step.short then s
  else match (entryAt s plan).bind (entryGroup s) with
    | none => s
    | some g =>
      forEach (s.kiln.nodes.filter (fun x => x.plan == plan && decide (1 ≤ x.node.stage.val) && !x.noticeSent && noticeReady s g x)) s
        (fun x t =>
          let t1 := modNode plan x.node (fun y => { y with noticeSent := true }) t
          let l := x.node.stage.val - 1
          if isRootNode g x.node then armDown plan x.node t1
          else
            let pc := coordAt (l + 1) x.node.coord.toNat
            forEach (placesOf s g.num (l + 1) pc) t1 (fun i u =>
              sendMgmt i (l + 1) (mkNotice u 3 i plan (l + 1) pc x.node.coord.toNat) u))

/-- In a short step a PASS target sends the arm notice straight to the source die once its hold is admitted (R200). -/
def armPass (plan : Nat) (s : State) : State :=
  match entryAt s plan with
  | none => s
  | some e =>
    if s.step.short && eKind e == 7 then
      match entryGroup s e with
      | none => s
      | some g => match dieOfMember g (tgtNow s e), dieOfMember g (argNow s e) with
        | some tgt, some src =>
          if myDie s = some tgt then
            sendMgmt (holderOf s src) (joinLevel tgt src) (mkNotice s 4 (holderOf s src) plan 0 src 0) s
          else s
        | _, _ => s
    else s

/-- Notices that follow the admission of an entry. -/
def afterAdmit (plan : Nat) (s : State) : State := armPass plan (sendNotices plan s)

/-- The allocator takes waiting entries in ascending plan index; one that does not fit blocks every later one (R195). A wait is logged
with its ticks (R201). `late` holds at a re-test after the open. -/
def admitWaiting (late : Bool) : Nat → State → State
  | 0, s => s
  | fuel + 1, s =>
    match s.kiln.waiting with
    | [] => s
    | (p, t) :: rest =>
      if claimAsked s p ≤ freeClaimable s then
        let s1 := admitEntry p { s with kiln := { s.kiln with waiting := rest } }
        let w := s.time.tick.toNat - t.toNat
        let s2 := if late then logEv 0x0403 unitPE p w (ctrAdd 0x30810 w s1) else s1
        admitWaiting late fuel (afterAdmit p s2)
      else s

/-! ### Closing (R191, R196) -/

/-- The result buffer of an index stays its node's: copies of the finished cord are not all accepted, or the cord has yet to come down
(R192, R193, R209). -/
def keepsResult (s : State) (x : NodeInst) (c : Nat) : Bool :=
  x.copyWait.any (fun w => w.1 == c) || (descends s x c && !x.copied.contains c)

/-- Free the operand buffers and, unless it is kept, the result buffer of a node's index (R192, R209). -/
def freeOpen (x : NodeInst) (c : Nat) (s : State) : State :=
  let s1 := forEach (x.opens.filter (fun o => o.idx == c)) s (fun o t => forEach o.ops t (fun p u => giveBuf p.buf u))
  if keepsResult s x c then s1
  else forEach (x.results.filter (fun r => r.1 == c)) s1 (fun r t => giveBuf r.2 t)

/-- Every index of a node has closed, and with that its claim (R196). -/
def allClosed (x : NodeInst) : Bool := decide (x.cords ≤ x.lowest) && x.taken.all (fun c => x.closed.contains c)

/-- A closed claim keeps the result buffers that are still held for the way down (R193; log 89). -/
def trimClaim (x : NodeInst) : NodeInst := if allClosed x then { x with claim := x.results.length, fromRecovery := 0 } else x

/-- The result buffer of an index that is closed is free once no copy of the finished cord waits to be accepted. -/
def dropResult (plan : Nat) (n : NodeId) (c : Nat) (s : State) : State :=
  match findNode s plan n with
  | none => s
  | some x =>
    if !x.closed.contains c || x.copyWait.any (fun w => w.1 == c) then s
    else modNode plan n (fun y => trimClaim { y with results := y.results.filter (fun r => r.1 != c) })
      (forEach (x.results.filter (fun r => r.1 == c)) s (fun r t => giveBuf r.2 t))

/-- A cord index closes at a node: its buffers return, the lowest open index moves and is advertised, and with the last index the claim
closes (R191, R193, R196). -/
def closeIdx (plan : Nat) (n : NodeId) (c : Nat) (s : State) : State :=
  match findNode s plan n with
  | none => s
  | some x =>
    if x.closed.contains c then s
    else
      let y := { x with closed := x.closed ++ [c], opens := x.opens.filter (fun o => o.idx != c),
                        results := if keepsResult s x c then x.results else x.results.filter (fun r => r.1 != c) }
      let lo := lowestOf s y
      let z := trimClaim (moveLow s lo y)
      let s1 := modNode plan n (fun _ => z) (freeOpen x c s)
      let s2 := { s1 with kiln := { s1.kiln with recoveryUsed := s1.kiln.recoveryUsed - (x.fromRecovery - z.fromRecovery) } }
      if lo = x.lowest then s2 else advertise z lo s2

/-- Change an open index of a node instance, opening it at the present tick where it is not open. -/
def modOpen (plan : Nat) (n : NodeId) (c : Nat) (f : OpenCord → OpenCord) (s : State) : State :=
  modNode plan n (fun x =>
    match findOpen x c with
    | some _ => { x with opens := x.opens.map (fun o => if o.idx = c then f o else o) }
    | none =>
      { x with opens := x.opens ++ [f { idx := c, ops := [], attempts := 0, residue := false, late := false,
                                        firstTick := s.time.tick, lastTick := s.time.tick, pausedBase := pausedTotal s, forwarded := false,
                                            sent := false,
                                        partialOut := none }] }) s

/-- Something at a node's open index is done: it closes where R191 lets it. A segment node and an L1-L4 node close when they have forwarded
the result; the root also when it has copied the finished cord down; the L0 die node also when every leaf that lands the cord has landed
it. -/
def tryClose (plan : Nat) (n : NodeId) (c : Nat) (s : State) : State :=
  match findNode s plan n, entryAt s plan with
  | some x, some e =>
    match entryGroup s e with
    | none => s
    | some g =>
      let up := carries s x c
      let sent := !up || (match findOpen x c with
        | some o => o.forwarded
        | none => false)
      let root := isRootNode g n
      let copied := x.copied.contains c
      let waits := root && x.copyWait.any (fun p => p.1 == c)
      let landed := decide (n.stage.val ≠ 1) || !descends s x c || (copied && allLanded s e c)
      if sent && landed && !waits && (!root || !descends s x c || copied) && (up || copied) then
        closeIdx plan n c s
      else s
  | _, _ => s

/-- The held cord of a PASS was the last one: its hold closes (R196). -/
def closePassHold (e : PlanEntry) (s : State) : State :=
  if s.kiln.passHolds.any (fun p => p.plan == eIdx e) &&
      (List.range (cordsNow s e)).all (fun c => allLanded s e c) then
    { s with kiln := { s.kiln with passHolds := s.kiln.passHolds.map (fun p =>
        if p.plan = eIdx e then { p with closed := true } else p) } }
  else s

end Sys2Proof.Machine
end

