-- ==== Sys2Proof/Machine/Forward.lean ====
section
/-! DEFINITION. Forward.lean: a node's output cord and its offer to the parent (R35, R43, R193, R217), and the copies of a finished cord
down to the leaves (R94, R152, R362). -/

namespace Sys2Proof.Machine

/-- The unit that computes cord `c` at a node: the segment combiner, or a kiln unit. -/
def nodeUnit (s : State) (n : NodeId) (c : Nat) : Nat := if n.stage.val = 0 then unitSeg n.seg.val else kilnCode s c

/-- The domain of that unit. -/
def nodeDom (s : State) (n : NodeId) (c : Nat) : Nat :=
  if n.stage.val = 0 then n.seg.val + 1 else 17 + (kilnFor s c).getD 0

/-- The header of a node's output over the rows of its operands (R216): LEVEL of the node, SOURCE_MEMBER its coordinate, SOURCE_TILE 0. -/
def nodeOutput (s : State) (e : PlanEntry) (n : NodeId) (c rows flags mask : Nat) (payload : List Byte) : Cord :=
  sealCrc (setMask
    { w0 := mkW0 (fmtOfCord e (posNow s e) c) (eKind e) (eIdx e) (n.stage.val - 1) (epochOf s (eGroup e)) n.coord.toNat,
      w1 := mkW1 (stepNo s) c, w2 := mkW2 0 0 rows flags, w3 := 0, w4 := 0, w5 := 0, w6 := 0, w7 := 0, payload := payload } mask) 0

/-- A cord that passes a node with one child under R35, or a BARRIER that all children have fed, as that node's output with these flags. -/
def passOutput (s : State) (e : PlanEntry) (n : NodeId) (flags : Nat) (c : Cord) : Cord :=
  nodeOutput s e n (cIdx c) (cRows c) flags (cMask c) c.payload

/-- A node's result has gone to its parent: it is kept for re-sends under R44. It counts as forwarded at once inside the instance, over a
link when the link has acknowledged it (R209); then the index may close. -/
def markSent (plan : Nat) (n : NodeId) (c : Nat) (out : Cord) (here : Bool) (s : State) : State :=
  tryClose plan n c (modNode plan n (fun x => { x with partials := x.partials.filter (fun p => p.1 != c) ++ [(c, out)] })
    (modOpen plan n c (fun o => { o with forwarded := here, sent := true, partialOut := none }) s))

/-- Send a node's result to the parent's placement for the cord: `none` while its window does not take the offer (R193, R197). The root's
result goes to the finishing stage. Also tells whether the result stays inside this instance. -/
def sendUp (x : NodeInst) (g : GroupDef) (c : Nat) (out : Cord) (s : State) : Option (State × Bool) :=
  let l := x.node.stage.val - 1
  let takes := fun (p : NodeInst) => (p.admitted || p.claim == 0) && inWin p c
  if x.node.stage.val = 0 then
    match findNode s x.plan (nodeId 0 x.node.coord.toNat) with
    | none => none
    | some p =>
      if takes p then
        some (toStops (unitSeg x.node.seg.val) [kilnCode s c] 0 { src := .seg x.node.seg.val, vc := 0, body := .cord out } [] s, true)
      else none
  else if isRootNode g x.node then
    some (toStops (kilnCode s c) [unitFS] 0 { src := .self 0, vc := 0, body := .root out } [] s, true)
  else
    let pc := coordAt (l + 1) x.node.coord.toNat
    match siteOf s.kiln.places g.num (l + 1) pc c with
    | none => none
    | some inst =>
      let cord := retarget out pc
      if inst = me s then
        match findNode s x.plan (nodeId (l + 1) pc) with
        | none => none
        | some p => if takes p then some (deliver { src := .self (l + 1), vc := 0, body := .cord cord } s, true) else none
      else if c < parentLow s x inst (nodeId (l + 1) pc) + x.win then
        some (sendInst (kilnCode s c) inst (l + 1) 0 cord false s, false)
      else none

/-- The parent's window, at the placement that computes cord `c`, does not reach the cord (R193). -/
def beyondWindow (s : State) (x : NodeInst) (g : GroupDef) (c : Nat) : Bool :=
  let l := x.node.stage.val - 1
  let past := fun (n : NodeId) => (findNode s x.plan n).any (fun p => !inWin p c)
  if x.node.stage.val = 0 then past (nodeId 0 x.node.coord.toNat)
  else if isRootNode g x.node then false
  else
    let n := nodeId (l + 1) (coordAt (l + 1) x.node.coord.toNat)
    (siteOf s.kiln.places g.num (l + 1) n.coord.toNat c).any (fun inst =>
      if inst = me s then past n else decide (parentLow s x inst n + x.win ≤ c))

/-- Offer a node's waiting result for cord `c` to its parent; an offer beyond the window is a window lead (R194). -/
def offerUp (plan : Nat) (n : NodeId) (c : Nat) (s : State) : State :=
  match findNode s plan n, (entryAt s plan).bind (entryGroup s) with
  | some x, some g => (match findOpen x c with
      | some o => (match o.partialOut with
          | some out => (match sendUp x g c out s with
              | some (t, here) => markSent plan n c out here t
              | none => if beyondWindow s x g c then leadEvent plan c (nodeUnit s n c) s else s)
          | none => s)
      | none => s)
  | _, _ => s

/-- Offer every waiting result of an entry again, from the top of the tree down (R193). -/
def flushPlan (plan : Nat) (s : State) : State :=
  forEach (s.kiln.nodes.filter (fun x => x.plan == plan)).reverse s (fun x t =>
    forEach (x.opens.filter (fun o => o.partialOut.isSome)) t (fun o u => offerUp plan x.node o.idx u))

/-- A node instance with a claim holds a result buffer for a cord index, once (R192); without one of its own it takes the one that the cord
came in, or a free buffer. -/
def holdResult (plan : Nat) (n : NodeId) (c : Nat) (kept : Option Nat) (s : State) : State :=
  match findNode s plan n with
  | none => s
  | some x =>
    if x.claim = 0 ∨ x.results.any (fun r => r.1 == c) then s
    else withSome (kept.elim (pickBuf s c) some) s (fun b t =>
      modNode plan n (fun y => { y with results := y.results ++ [(c, b)] }) (takeBuf b (.node plan) t))

/-- A node has a result for cord `c`: it goes to the result buffer, and only now are the operands and their buffers given up (R88, R192). -/
def setResult (plan : Nat) (n : NodeId) (c : Nat) (out : Cord) (s : State) : State :=
  match findNode s plan n with
  | none => s
  | some x =>
    let ops := (findOpen x c).elim [] (fun o => o.ops)
    let free := fun (t : State) => forEach ops t (fun p u => giveBuf p.buf u)
    let s1 := if x.n = 1 then holdResult plan n c none (free s) else free (holdResult plan n c none s)
    modOpen plan n c (fun o => { o with partialOut := some out, ops := [] }) s1

/-- The result of cord `c` at a node is complete: it is offered to the parent, and whatever waited on that is offered too. -/
def complete (plan : Nat) (n : NodeId) (c : Nat) (out : Cord) (s : State) : State :=
  flushPlan plan (offerUp plan n c (setResult plan n c out s))

/-! ### Descent (R94) -/

/-- What a held cord's item is known by (R403). -/
def heldKey (t : Nat) (c : Cord) : Nat := progKey 3 (cPlan c) (t * 65536 + cIdx c)

/-- A landing cord waits for its permit in a cord buffer of the die (R152): a cord of the tree in the result buffer of its index at the L0
die node, a PASS cord in a buffer of the entry's hold (R192), the one that it came in or another. -/
def holdForPermit (e : PlanEntry) (t slot : Nat) (kept : Option Nat) (c : Cord) (s : State) : State :=
  let hold := fun (b : Option Nat) (u : State) =>
    noteProgress (heldKey t c) (setLeaf t (fun l => { l with held := l.held ++ [{ slot := slot, buf := b, seq := 0, cord := c }] }) u)
  if eKind e = 7 then
    (match kept.elim (pickBuf s (cIdx c)) some with
      | some b => hold (some b) (takeBuf b (.permit (eIdx e)) s)
      | none => hold none s)
  else hold (((findNode s (eIdx e) (nodeId 0 ((myDie s).getD 0))).bind (fun x => x.results.find? (fun r => r.1 == cIdx c))).map Prod.snd) s

/-- The channel on which a landing copy of a kind crosses the die (R252). -/
def landVc (kind : Nat) : Nat := if kind = 7 then 2 else if kind = 8 then 3 else 1

/-- A cord for a leaf's landing entry must wait: the entry has a permit that is not visible (R152). -/
def mustHold (s : State) (p : Nat × Nat) : Bool := (leafAt s p.1).lands.any (fun x => x.slot == p.2 && lePermitEn x.w0 && !x.visible)

/-- Give a cord to the leaves that land it, from the unit that has it: one whose permit is not yet visible is held (R152), any other goes to
the leaves' segments on the channel of its kind (R15, R252). -/
def giveLeaves (unit : Nat) (e : PlanEntry) (kept : Option Nat) (c : Cord) (dests : List (Nat × Nat)) (s : State) : State :=
  let hold := fun (p : Nat × Nat) => eKind e != 5 && mustHold s p
  let s1 := forEach (dests.filter hold) s (fun p t => holdForPermit e p.1 p.2 kept c t)
  let now := dests.filter (fun p => !hold p)
  let vc := landVc (eKind e)
  if now.isEmpty then s1
  else toStops unit (now.map (fun p => unitSeg (segOf p.1))) vc { src := .self 0, vc := vc, body := .cord c } now s1

/-- A BARRIER reaches the leaves of a segment: each bumps the completion counter of its landing entry, and the die's index may close (R106,
R154, R191). -/
def barrierAt (e : PlanEntry) (seg : Nat) (s : State) : State :=
  let s1 := forEach ((landersHere s e 0).filter (fun p => segOf p.1 == seg)) s (fun p t =>
    let t1 := setLeaf p.1 (tallyLand p.2 0 t.time.tick) t
    match (leafAt t p.1).lands.find? (fun x => x.slot == p.2) with
    | some x => bump p.1 (leCompletion x.w0) 1 t1
    | none => t1)
  flushPlan (eIdx e) (tryClose (eIdx e) (nodeId 0 ((myDie s).getD 0)) 0 s1)

/-- The key of a landed cord in the die's duplicate filter: PASS and MIRROR cords also differ by tile (R150). -/
def landKey (c : Cord) : Nat × Nat :=
  (cPlan c, if cKind c = 7 ∨ cKind c = 8 then (cTile c + 1) * 65536 + cIdx c else cIdx c)

/-- A die takes in a cord that it lands: once per cord, folded into the digest before it is copied to the leaves from the unit that has it
(R150, R362). -/
def dieTakes (unit : Nat) (e : PlanEntry) (kept : Option Nat) (c : Cord) (dests : List (Nat × Nat)) (s : State) : State :=
  let s1 := { s with kiln := { s.kiln with landed := landKey c :: s.kiln.landed } }
  let s2 := if eKind e = 5 then s1 else addDigest (eIdx e) (cordDigest c) 1 s1
  giveLeaves unit e kept c dests (raiseNf e (cFlags c) (addFlags (eIdx e) (cFlags c) s2))

/-- A second copy of a cord that the die has taken: discarded and counted in the tallies (R44, R150). -/
def duplicate (c : Cord) (dests : List (Nat × Nat)) (s : State) : State :=
  forEach dests s (fun p t => segCtr (segOf p.1) 0x30 1 (setLeaf p.1 (tallyDup (cPlan c)) t))

/-- The copies of a finished cord from an L1 to L4 node to the children that land it (R94, R217). -/
def copyChildren (e : PlanEntry) (g : GroupDef) (l coord : Nat) (c : Cord) (s : State) : State :=
  forEach ((childrenOf g l coord).filter (fun k => childLands e (argNow s e) g (l - 1) k (cIdx c))) s (fun k t =>
    match (if l = 1 then some (holderOf t k) else siteOf t.kiln.places g.num (l - 1) k (cIdx c)) with
    | none => t
    | some inst =>
      let cord := retarget c k
      let t1 := modNode (eIdx e) (nodeId l coord) (fun x => { x with copyWait := x.copyWait ++ [(cIdx c, k)] }) t
      if inst = me t then deliver { src := .self l, vc := 1, body := .cord cord } t1
      else sendInst (kilnCode t (cIdx c)) inst l 1 cord false t1)

/-- A child has accepted its copy of a finished cord (R191, R209): the node's index may close, and a result buffer that only the copies held
is free. -/
def copyAccepted (plan : Nat) (n : NodeId) (c k : Nat) (s : State) : State :=
  let s1 := modNode plan n (fun y => { y with copyWait := y.copyWait.filter (· != (c, k)) }) s
  flushPlan plan (tryClose plan n c (dropResult plan n c s1))

/-- A finished cord at a node of this instance: copied onward, or taken by the die (R94). `kept` is the buffer that it came in. -/
def descendAt (plan : Nat) (n : NodeId) (kept : Option Nat) (c : Cord) (s : State) : State :=
  match entryAt s plan with
  | none => s
  | some e => match entryGroup s e with
    | none => s
    | some g =>
      let idx := cIdx c
      let s1 := if n.stage.val = 1 then
          (if dieLandsCord e (argNow s e) g n.coord.toNat idx then
            dieTakes (kilnCode s idx) e none c (landersHere s e idx) (holdResult plan n idx kept s) else s)
        else dropResult plan n idx (copyChildren e g (n.stage.val - 1) n.coord.toNat c (holdResult plan n idx kept s))
      let s2 := modNode plan n (fun x => { x with copied := if x.copied.contains idx then x.copied else x.copied ++ [idx] }) s1
      flushPlan plan (tryClose plan n idx s2)

/-- A link at a level has acknowledged a cord that this instance sent (R209): an upward result counts as forwarded, a copy as accepted. -/
def ackCord (level vc : Nat) (c : Cord) (s : State) : State :=
  if 6 < cKind c ∨ cStep c ≠ stepNo s then s
  else if vc = 0 then
    let n := nodeId (cLevel c) (cSource c)
    match (findNode s (cPlan c) n).bind (fun x => findOpen x (cIdx c)) with
    | some o => if o.sent then flushPlan (cPlan c) (tryClose (cPlan c) n (cIdx c)
          (modOpen (cPlan c) n (cIdx c) (fun y => { y with forwarded := true }) s)) else s
    | none => s
  else if vc = 1 then
    forEach (s.kiln.nodes.filter (fun x => x.plan == cPlan c && x.node.stage.val == level + 1 &&
        x.copyWait.contains (cIdx c, cTarget c))) s (fun x t => copyAccepted (cPlan c) x.node (cIdx c) (cTarget c) t)
  else s

/-- A BARRIER turns at the root's node, which copies it down (R94, R106). LEVEL is the root's on descent (R216). -/
def rootBroadcast (e : PlanEntry) (g : GroupDef) (c : Cord) (s : State) : State :=
  descendAt (eIdx e) (nodeId g.topLevel (rootCoord g)) none c s

/-- The finishing stage sends a finished cord down (R94): over the rings, and the seam where it lies between them (R9), to the kiln unit of its
index at the root's node, if anything below it lands the cord. The hop is named as one level above the root. -/
def finishDown (e : PlanEntry) (g : GroupDef) (c : Cord) (s : State) : State :=
  if (findNode s (eIdx e) (nodeId g.topLevel (rootCoord g))).any (fun x => descends s x (cIdx c)) then
    toStops unitFS [kilnCode s (cIdx c)] 1 { src := .self (g.topLevel + 1), vc := 1, body := .cord (retarget c (rootCoord g)) } [] s
  else s

end Sys2Proof.Machine
end

