-- ==== Sys2Proof/Machine/Crypto.lean ====
section
/-! DEFINITION. Crypto.lean: SHA-384 and the ECDSA P-384 verification that authentication names (R301, R306, R320, R322). The spec names
the published standards (FIPS 180-4, FIPS 186-5); their constants come from those standards (PRESUMED, log 3). -/

namespace Sys2Proof.Machine

/-! ### SHA-384 -/

/-- The whole part of the `k`-th root of `n`, found from bit `b - 1` down; `r` holds the bits above. -/
def nthRoot (k n : Nat) : Nat → Nat → Nat
  | 0, r => r
  | b + 1, r => nthRoot k n b (if (r + 2 ^ b) ^ k ≤ n then r + 2 ^ b else r)

/-- The first 64 bits of the fraction of the `k`-th root of a number below 2^15. -/
def rootFraction (k n : Nat) : Word := BitVec.ofNat 64 (nthRoot k (n * 2 ^ (64 * k)) 72 0)

/-- The first 80 primes. -/
def shaPrimes : List Nat :=
  (List.range 410).filter (fun n => decide (2 ≤ n) && (List.range 21).all (fun d => decide (d < 2 ∨ n ≤ d ∨ n % d ≠ 0)))

/-- The round constants: the fractions of the cube roots of the first 80 primes. -/
def shaK : List Word := shaPrimes.map (rootFraction 3)

/-- The initial hash value of SHA-384: the fractions of the square roots of the ninth to the sixteenth prime. -/
def shaInit : List Word := ((shaPrimes.drop 8).take 8).map (rootFraction 2)

/-- The word of a list, 0 past its end. -/
def wAt (l : List Word) (i : Nat) : Word := l[i]?.getD 0

/-- The rotations of a word to the right by each of `rs`, added modulo 2. -/
def rotations (rs : List Nat) (x : Word) : Word := rs.foldl (fun acc r => acc ^^^ x.rotateRight r) 0

/-- One extension of the message schedule, newest word first. -/
def shaExtend : Nat → List Word → List Word
  | 0, w => w
  | n + 1, w =>
    let near := rotations [19, 61] (wAt w 1) ^^^ wAt w 1 >>> 6
    let far := rotations [1, 8] (wAt w 14) ^^^ wAt w 14 >>> 7
    shaExtend n ((near + wAt w 6 + far + wAt w 15) :: w)

/-- One round. The working variables are the last four values of each of two sequences, newest first; a round adds one value to each. -/
def shaRound (h : List Word × List Word) (kw : Word) : List Word × List Word :=
  let e := wAt h.2 0
  let chosen := wAt h.2 2 ^^^ (e &&& (wAt h.2 1 ^^^ wAt h.2 2))
  let most := (wAt h.1 0 &&& (wAt h.1 1 ||| wAt h.1 2)) ||| (wAt h.1 1 &&& wAt h.1 2)
  let new := kw + wAt h.2 3 + chosen + rotations [14, 18, 41] e
  ((new + most + rotations [28, 34, 39] (wAt h.1 0)) :: h.1.take 3, (new + wAt h.1 3) :: h.2.take 3)

/-- The big-endian words of a block, last first. -/
def beWordsRev (b : List Byte) : List Word :=
  ((chunks 8 16 b).map (fun c => BitVec.ofNat 64 (ofBe c))).reverse

/-- Compression of one 128-byte block. -/
def shaBlock (h : List Word) (b : List Byte) : List Word :=
  let kws := shaK.zipWith (· + ·) (shaExtend 64 (beWordsRev b)).reverse
  let r := kws.foldl shaRound (h.take 4, h.drop 4)
  h.zipWith (· + ·) (r.1 ++ r.2)

/-- Bytes of a number, most significant first. -/
def beBytes (n v : Nat) : List Byte := (leBytes n v).reverse

/-- SHA-384 of a byte string, 48 bytes. -/
def sha384 (m : List Byte) : List Byte :=
  let padded := m ++ [0x80#8] ++ zeros ((111 + 128 - m.length % 128) % 128) ++ beBytes 16 (8 * m.length)
  let h := (chunks 128 (padded.length / 128) padded).foldl shaBlock shaInit
  ((h.take 6).map (fun w => beBytes 8 w.toNat)).flatten

/-! ### ECDSA over P-384 -/

/-- The field prime of P-384. -/
def p384P : Nat := 2 ^ 384 - 2 ^ 128 - 2 ^ 96 + 2 ^ 32 - 1
/-- The group order of P-384. -/
def p384N : Nat := 0xffffffffffffffffffffffffffffffffffffffffffffffffc7634d81f4372ddf581a0db248b0a77aecec196accc52973
/-- The coefficient b. -/
def p384B : Nat := 0xb3312fa7e23ee7e4988e056be3f82d19181d9c6efe8141120314088f5013875ac656398d8a2ed19d2a85c8edd3ec2aef
/-- The base point. -/
def p384Gx : Nat := 0xaa87ca22be8b05378eb1c71ef320ad746e1d3b628ba79b9859f741e082542a385502f25dbf55296c3a545e3872760ab7
/-- The base point. -/
def p384Gy : Nat := 0x3617de4a96262c6f5d9e98bf9292dc29f8f41dbd289a147ce9da3113b5f0b8c00a60b1ce1d7e819d7a431d7c90ea0e5f

/-- a − b modulo m, for a, b below m. -/
def subMod (m a b : Nat) : Nat := (a + m - b) % m

/-- base ^ e modulo m, over the low `bits` bits of `e`. -/
def powMod (m : Nat) : Nat → Nat → Nat → Nat
  | 0, _, _ => 1
  | bits + 1, base, e =>
    let r := powMod m bits (base * base % m) (e / 2)
    if e % 2 = 1 then r * base % m else r

/-- The inverse modulo a prime, by Fermat. -/
def invMod (m a : Nat) : Nat := powMod m 384 (a % m) (m - 2)

/-- A curve point: none is the point at infinity. -/
def ecAdd (p q : Option (Nat × Nat)) : Option (Nat × Nat) :=
  match p, q with
  | none, q => q
  | p, none => p
  | some (x1, y1), some (x2, y2) =>
    if x1 = x2 then
      if (y1 + y2) % p384P = 0 then none
      else
        let l := (subMod p384P (3 * x1 * x1 % p384P) 3) * invMod p384P (2 * y1) % p384P
        let x3 := subMod p384P (l * l % p384P) (2 * x1 % p384P)
        some (x3, subMod p384P (l * subMod p384P x1 x3 % p384P) y1)
    else
      let l := subMod p384P y2 y1 * invMod p384P (subMod p384P x2 x1) % p384P
      let x3 := subMod p384P (subMod p384P (l * l % p384P) x1) x2
      some (x3, subMod p384P (l * subMod p384P x1 x3 % p384P) y1)

/-- k times a point, over the low `bits` bits of `k`. -/
def ecMul : Nat → Nat → Option (Nat × Nat) → Option (Nat × Nat)
  | 0, _, _ => none
  | bits + 1, k, p =>
    let r := ecMul bits (k / 2) (ecAdd p p)
    if k % 2 = 1 then ecAdd r p else r

/-- The point lies on the curve, with coordinates below the prime. -/
def onCurve (x y : Nat) : Bool :=
  decide (x < p384P) && decide (y < p384P) &&
    decide ((y * y) % p384P = subMod p384P ((x * x * x + p384B) % p384P) (3 * x % p384P))

/-- ECDSA P-384 verification of (r, s) by the public key (qx, qy) over a 48-byte digest (R322). -/
def ecdsaVerify (qx qy r s : Nat) (digest : List Byte) : Bool :=
  if r = 0 ∨ s = 0 ∨ p384N ≤ r ∨ p384N ≤ s ∨ onCurve qx qy = false then false
  else
    let w := invMod p384N s
    let u1 := ofBe digest * w % p384N
    let u2 := r * w % p384N
    match ecAdd (ecMul 384 u1 (some (p384Gx, p384Gy))) (ecMul 384 u2 (some (qx, qy))) with
    | none => false
    | some (x, _) => decide (x % p384N = r)

end Sys2Proof.Machine
end

