-- ==== Sys2Proof/Machine/Framing.lean ====
section
/-! DEFINITION. Framing.lean: the line side of a KX4-mode port (R226, R453): groups of five flits behind a group header, the two RS(544,514)
codewords that a group fills, and their symbols on the lanes. Log 70 names what the rule leaves to IEEE 802.3. -/

namespace Sys2Proof.Machine

/-- A product in GF(2^10), reduced by x^10 + x^3 + 1: `n` more bits of `b`, from bit `n - 1` down. PRESUMED, log 70. -/
def gfMulAux (a b : BitVec 10) : Nat → BitVec 10 → BitVec 10
  | 0, acc => acc
  | n + 1, acc =>
    let d := (acc <<< 1) ^^^ (if acc.getLsbD 9 then 0x009 else 0)
    gfMulAux a b n (if b.getLsbD n then d ^^^ a else d)

/-- A product in GF(2^10). -/
def gfMul (a b : BitVec 10) : BitVec 10 := gfMulAux a b 10 0

/-- The next partial product of the generator polynomial: times x + r, its coefficients from the highest power down without the leading 1. -/
def timesRoot (r : BitVec 10) (g : List (BitVec 10)) : List (BitVec 10) :=
  List.zipWith (fun a b => a ^^^ gfMul r b) (g ++ [0]) (1 :: g)

/-- The generator of RS(544,514): the product of x + α^i for i from 0 to 29, without its leading 1. PRESUMED, log 70. -/
def rsGenerator : Nat → BitVec 10 → List (BitVec 10) → List (BitVec 10)
  | 0, _, g => g
  | n + 1, r, g => rsGenerator n (gfMul r 2) (timesRoot r g)

/-- One message symbol enters the encoder's remainder register. -/
def rsStep (gen rem : List (BitVec 10)) (m : BitVec 10) : List (BitVec 10) :=
  let fb := m ^^^ rem.headD 0
  List.zipWith (fun r g => r ^^^ gfMul fb g) (rem.drop 1 ++ [0]) gen

/-- A codeword of RS(544,514): its 514 message symbols and their 30 parity symbols. -/
def rsCodeword (ms : List (BitVec 10)) : List (BitVec 10) := ms ++ ms.foldl (rsStep (rsGenerator 30 1 [])) (List.replicate 30 0)

/-- Ten-bit symbols of a byte string, bit 0 of the first byte first. -/
def symbolsOf (bs : List Byte) : List (BitVec 10) :=
  let n := ofLe bs
  (List.range (bs.length * 8 / 10)).map (fun i => BitVec.ofNat 10 (n / 2 ^ (10 * i)))

/-- The 40-bit group header (R226): sync word, group counter, width and lane-rate codes. -/
def groupHeader (no : BitVec 8) (width rate : BitVec 2) : List Byte :=
  (wordBytes (putField 24 16 0xA3C5 ||| putField 16 8 no.toNat ||| putField 12 4 width.toNat ||| putField 8 4 rate.toNat)).take 5

/-- The lanes in use, lowest first. -/
def lanesUsed (m : BitVec 8) : List Nat := (List.range 8).filter (fun i => m.getLsbD i)

/-- A group leaves as a pair of codewords: symbol i on lane i mod w of the w active lanes (R226). -/
def groupSymbols (l : LinkSt) (flits : List (List Byte)) : List (Nat × BitVec 10) :=
  let ms := symbolsOf (groupHeader l.groupNo l.width l.rate ++ flits.flatten)
  let lanes := lanesUsed l.lanesGood
  (rsCodeword (ms.take 514) ++ rsCodeword (ms.drop 514)).mapIdx (fun i x => ((lanes[i % lanes.length]?).getD 0, x))

/-- A flit enters the group being filled; the fifth completes it (R226). -/
def frameFlit (b : List Byte) (l : LinkSt) : LinkSt :=
  let g := l.group ++ [b]
  if g.length < 5 then { l with group := g }
  else { l with group := [], groupNo := l.groupNo + 1, line := l.line ++ groupSymbols l g }

/-- The bits of a lane in the order they are signalled: what was left over, then its symbols, bit 0 first (R226, R452). -/
def laneBits (l : LinkSt) (i : Nat) : List Bool :=
  smGet [] l.linePart i ++ ((l.line.filter (fun p => p.1 == i)).map (fun p => (List.range 10).map (fun j => p.2.getLsbD j))).flatten

/-- A word of the PMA side: 256 bits, the first one in bit 0 (R452). -/
def wordOfBits (bs : List Bool) : BitVec 256 := BitVec.ofNat 256 (bs.foldr (fun b n => 2 * n + (if b then 1 else 0)) 0)

/-- The bits of a word in their order. -/
def bitsOfWord (w : BitVec 256) : List Bool := (List.range 256).map (fun j => w.getLsbD j)

/-- The 256-bit words of a lane since the last ember edge. -/
def laneWords (l : LinkSt) (i : Nat) : List (BitVec 256) :=
  let bs := laneBits l i
  (List.range (bs.length / 256)).map (fun k => wordOfBits ((bs.drop (256 * k)).take 256))

/-- The bits of each lane that fill no word yet. -/
def laneRests (l : LinkSt) : SMap (List Bool) :=
  (List.range 8).foldl (fun m i => smSet [] m i ((laneBits l i).drop (256 * ((laneBits l i).length / 256)))) []

/-! ### The receiver (R226, R453). The operands of FLIT_RECEIVE are what it makes of the words on its lanes. -/

/-- A power in GF(2^10). -/
def gfPow (a : BitVec 10) : Nat → BitVec 10
  | 0 => 1
  | n + 1 => gfMul a (gfPow a n)

/-- The inverse in GF(2^10). -/
def gfInv (a : BitVec 10) : BitVec 10 := gfPow a 1022

/-- A polynomial's value at a point; its coefficients stand from the lowest power up. -/
def gfEval (p : List (BitVec 10)) (x : BitVec 10) : BitVec 10 := p.foldr (fun c acc => c ^^^ gfMul x acc) 0

/-- The 30 syndromes of a received codeword: its values at the roots of the generator. -/
def syndromes (cw : List (BitVec 10)) : List (BitVec 10) := (List.range 30).map (fun j => gfEval cw.reverse (gfPow 2 j))

/-- A polynomial plus `c` times x^m times another. -/
def polyAdd (p q : List (BitVec 10)) (c : BitVec 10) (m : Nat) : List (BitVec 10) :=
  let r := List.replicate m 0 ++ q.map (gfMul c)
  (List.range (max p.length r.length)).map (fun i => p.getD i 0 ^^^ r.getD i 0)

/-- Berlekamp and Massey's search for the error locator: the locator and its length, the last one before it was lengthened with its discrepancy,
and the steps since. -/
def locator (syn : List (BitVec 10)) : Nat → List (BitVec 10) → Nat → List (BitVec 10) → BitVec 10 → Nat → Nat → List (BitVec 10) × Nat
  | 0, c, len, _, _, _, _ => (c, len)
  | k + 1, c, len, b, bd, m, n =>
    let d := (List.range (len + 1)).foldl (fun a i => a ^^^ gfMul (c.getD i 0) (if i ≤ n then syn.getD (n - i) 0 else 0)) 0
    if d = 0 then locator syn k c len b bd (m + 1) (n + 1)
    else
      let c1 := polyAdd c b (gfMul d (gfInv bd)) m
      if 2 * len ≤ n then locator syn k c1 (n + 1 - len) c d 1 (n + 1) else locator syn k c1 len b bd (m + 1) (n + 1)

/-- The error that Forney's formula gives at a position, counted from the last symbol. -/
def errorAt (syn lam : List (BitVec 10)) (pos : Nat) : BitVec 10 :=
  let x := gfPow 2 pos
  let y := gfInv x
  let omega := (List.range 30).map (fun k => (List.range (k + 1)).foldl (fun a i => a ^^^ gfMul (lam.getD i 0) (syn.getD (k - i) 0)) 0)
  let slope := (List.range lam.length).map (fun i => if i % 2 = 0 then lam.getD (i + 1) 0 else 0)
  gfMul x (gfMul (gfEval omega y) (gfInv (gfEval slope y)))

/-- The decoder of RS(544,514): the codeword with at most 15 symbols changed, and whether any was; none where there is no such codeword. -/
def rsDecode (cw : List (BitVec 10)) : Option (List (BitVec 10) × Bool) :=
  let syn := syndromes cw
  if syn.all (· == 0) then some (cw, false)
  else
    let l := locator syn 30 [1] 0 [1] 1 1 0
    let at_ := (List.range 544).filter (fun p => gfEval l.1 (gfInv (gfPow 2 p)) == 0)
    if 15 < l.2 ∨ at_.length ≠ l.2 then none
    else
      let fixed := cw.mapIdx (fun i x => if at_.contains (543 - i) then x ^^^ errorAt syn l.1 (543 - i) else x)
      if (syndromes fixed).all (· == 0) then some (fixed, true) else none

/-- The symbols of a codeword pair from its lanes, symbol i from lane i mod w (R226). -/
def gather (lanes : List (List (BitVec 10))) : List (BitVec 10) :=
  (List.range 1088).map (fun i => ((lanes[i % lanes.length]?).getD []).getD (i / lanes.length) 0)

/-- The five flits of a received pair with the decoder's outcome for each; none where the group header does not show (R226). -/
def receiveGroup (pair : List (BitVec 10)) : Option (List (RxCheck × List Byte)) :=
  let a := rsDecode (pair.take 544)
  let b := rsDecode (pair.drop 544)
  let text := fun (r : Option (List (BitVec 10) × Bool)) (raw : List (BitVec 10)) => ((r.map Prod.fst).getD raw).take 514
  let n : Nat := (text a (pair.take 544) ++ text b (pair.drop 544)).foldr (fun (x : BitVec 10) acc => x.toNat + 1024 * acc) 0
  let fixed := (if a.any Prod.snd then 1 else 0) + (if b.any Prod.snd then 1 else 0)
  if n / 2 ^ 24 % 65536 ≠ 0xA3C5 then none
  else some ((List.finRange 5).map (fun k =>
    ({ place := k, badFirst := a.isNone, badSecond := b.isNone, corrected := Fin.ofNat 3 fixed }, leBytes 256 (n / 2 ^ (40 + 2048 * k.val)))))

/-- A flit received in a group: no uncorrectable codeword overlaps it (R226). The first codeword of the pair reaches into the third flit. -/
def fecOk (chk : RxCheck) : Bool := !(chk.badFirst && decide (chk.place.val ≤ 2)) && !(chk.badSecond && decide (2 ≤ chk.place.val))

/-- Codewords of a pair that the decoder could not correct, counted with the first flit of its group. -/
def uncorrectable (chk : RxCheck) : Nat :=
  if chk.place.val = 0 then (if chk.badFirst then 1 else 0) + (if chk.badSecond then 1 else 0) else 0

/-- Codewords of a pair that the decoder corrected, counted with the first flit of its group. -/
def corrected (chk : RxCheck) : Nat := if chk.place.val = 0 then chk.corrected.val else 0

end Sys2Proof.Machine
end

