-- ==== Sys2Proof/Machine/LinkOps.lean ====
section
/-! DEFINITION. LinkOps.lean: the operations of a KX4-mode port or a module: flits and their header (R220 to R223), injectors (R423 to
R425), protocol 2 halves (R247, R248), acknowledgement and replay (R227 to R229), and what a received cord meets first (R217, R219). -/

namespace Sys2Proof.Machine

/-! ### State of a link -/

/-- The port or module is a module. -/
def isModule (k : Nat) : Bool := decide (18 ≤ k)

/-- Its domain and clock work. -/
def linkLive (s : State) (k : Nat) : Bool := live s (domLink k)

/-- Training has ended and LINK_ID is being exchanged: only control flits pass (R215). -/
def trained (s : State) (k : Nat) : Bool :=
  let l := linkAt s k
  l.state == .training && l.rewiden.isNone && (if isModule k then l.rateGts != 0 else l.lanesGood != 0) && !isEth s k

/-- Flits pass on the link now. -/
def flitsPass (s : State) (k : Nat) : Bool := linkLive s k && !isEth s k && ((linkAt s k).state == .up || trained s k)

/-- The replay buffer is full: only NOP flits go (R227). -/
def replayFull (s : State) (k : Nat) : Bool := !isModule k && decide (512 ≤ (linkAt s k).replay.length)

/-- The weights of the channels (R252, R253). -/
def weights (s : State) : List Nat :=
  match s.image with
  | some im => im.weights
  | none => [8, 8, 6, 3, 1]

/-- A channel of a link. -/
def chanAt (l : LinkSt) (v : Nat) : Chan := (l.chans[v]?).getD Chan.init

/-- Change a channel of a link. -/
def setChan (k v : Nat) (f : Chan → Chan) (s : State) : State := setLink k (fun l => { l with chans := modAt l.chans v f }) s

/-- A link counts a protocol error, which is logged with its reason (R51, R90, R217, R222): a port's in PROTOCOL_ERRORS. The catalogue of R417
has no such counter of a module, and the model counts a module's where no register shows it. DESIGN CHOICE, log 69. -/
def linkError (k plan cord reason : Nat) (s : State) : State :=
  protocolError plan cord reason (unitLink k)
    (if isModule k then setLink k (fun l => { l with protoErrs := l.protoErrs + 1 }) s else linkCtr k 0x100 1 s)

/-! ### Injectors (R423 to R425) -/

/-- An injector. -/
def injAt (s : State) (j : Nat) : Injector := smGet Injector.init s.inject.units j

/-- Change an injector. -/
def setInj (j : Nat) (f : Injector → Injector) (s : State) : State :=
  { s with inject := { s.inject with units := smMod Injector.init s.inject.units j f } }

/-- ACTION. -/
def injAction (u : Injector) : Nat := fieldOf u.ctrl 60 4
/-- INCLUDE_RESEND. -/
def injResend (u : Injector) : Bool := bitOf u.ctrl 57
/-- Channel `v` is in VC_MASK. -/
def injVc (u : Injector) (v : Nat) : Bool := bitOf u.matchReg (59 + v)

/-- The injector of a link acts: ENABLE is 1, it is armed, and its link is neither training nor an idle spare (R423, R427). -/
def injActive (s : State) (j : Nat) : Bool :=
  s.inject.enable && (injAt s j).armed && linkUp s j && (linkAt s j).role != 1

/-- Stands for the plan index of a flit or frame that carries no cord. -/
def noPlan : Nat := 4096

/-- What is examined for a match (R424): the channel (none for a control flit), the plan index and step of the cord, and whether it is
the first flit of its cord. -/
def injMatches (u : Injector) (vc : Option Nat) (plan step : Nat) (first : Bool) : Bool :=
  (match vc with
    | some v => injVc u v
    | none => bitOf u.matchReg 58) &&
  (!bitOf u.matchReg 57 || plan == fieldOf u.matchReg 43 12) &&
  (!bitOf u.matchReg 56 || (decide (plan < noPlan) && step % 65536 == fieldOf u.matchReg 27 16)) &&
  (!bitOf u.matchReg 55 || first)

/-- The match numbered `m` is injected under TRIGGER; the reserved code injects nothing (R424). -/
def injTriggers (u : Injector) (m : Nat) : Bool :=
  let p := fieldOf u.ctrl 0 32
  match fieldOf u.ctrl 58 2 with
  | 0 => m == 1
  | 1 => decide (1 ≤ p) && m % p == 0
  | 2 => decide ((mix64 (u.seed ^^^ BitVec.ofNat 64 m)).toNat / 2 ^ 32 < p)
  | _ => false

/-- Count a match; the answer tells whether it is to be injected. -/
def countMatch (j : Nat) (s : State) : State × Bool :=
  let u := injAt s j
  let s1 := setInj j (fun x => { x with matched := satAdd x.matched 1 }) s
  (s1, injTriggers u (u.matched.toNat + 1))

/-- An injection has been made: counted and logged; at a non-zero COUNT_MAX the injector disarms, which is logged (R424). -/
def injected (j : Nat) (s : State) : State :=
  let s1 := setInj j (fun x => { x with injected := satAdd x.injected 1 }) s
  let n := (injAt s1 j).injected.toNat
  let s2 := logEv 0x0A06 (unitLink j) j n (linkCtr j (if isModule j then 0xD8 else 0x110) 1 s1)
  let m := fieldOf (injAt s2 j).ctrl 32 16
  if m ≠ 0 ∧ m ≤ n then logEv 0x0A07 (unitLink j) j 1 (setInj j (fun x => { x with armed := false }) s2) else s2

/-- A HOLD keeps grants from a channel (R425); a failed die stops sending on VC0 to VC3 (R379). -/
def heldBack (s : State) (k v : Nat) : Bool := ((injAt s k).holding && injVc (injAt s k) v) || (s.faults.dieFailed && decide (v < 4))

/-- The flip of an injector: BYTE_OFFSET and FLIP_MASK. -/
def injFlip (u : Injector) : Nat × BitVec 24 := (fieldOf u.param 56 8, BitVec.ofNat 24 (fieldOf u.param 32 24))

/-- The bits of a mask flipped from bit 0 of a byte upward. -/
def flipBytes (off : Nat) (m : BitVec 24) (bs : List Byte) : List Byte :=
  bs.mapIdx (fun i b => if off ≤ i ∧ i < off + 3 then b ^^^ BitVec.ofNat 8 (m.toNat / 2 ^ (8 * (i - off))) else b)

/-- Bytes from BYTE_OFFSET on that a mask reaches. -/
def maskBytes (m : BitVec 24) : Nat := if m.toNat < 2 ^ 8 then 1 else if m.toNat < 2 ^ 16 then 2 else 3

/-- A DROP or CORRUPT action on a flit; `none` where it cannot apply: CORRUPT_CORD needs a flit that carries cord bytes. -/
def injFlit (u : Injector) (f : Flit) : Option Flit :=
  let p := injFlip u
  let fits := decide (p.1 + maskBytes p.2 ≤ 256)
  match injAction u with
  | 1 => some { f with dropped := true }
  | 2 => if fits then some { f with flipFlit := some p } else none
  | 3 => if fits ∧ 8 ≤ p.1 ∧ f.plan < noPlan then some { f with flipCord := some p } else none
  | _ => none

/-- A HOLD begins (R425). -/
def startHold (k : Nat) (s : State) : State := setInj k (fun x => { x with holding := true }) s

/-- The injector of a link examines a flit (R424): the flit as it goes, and the state; none where a REORDER or HOLD would keep it from its
grant. -/
def examineFlit (k : Nat) (f : Flit) (s : State) : Option Flit × State :=
  if !injActive s k || !injMatches (injAt s k) (if f.ctrl then none else some f.vc) f.plan f.step f.soc then (some f, s)
  else
    let u := injAt s k
    let r := countMatch k s
    if !r.2 then (some f, r.1)
    else if injAction u = 4 ∨ injAction u = 5 then (none, r.1)
    else match injFlit u f with
      | some g => (some g, injected k r.1)
      | none => (some f, r.1)

/-- The injector of a link acts on a flit that is no more to be granted, a replay or a control flit: a HOLD that it starts keeps other flits
back, and a REORDER cannot apply (R425). -/
def injectFlit (k : Nat) (f : Flit) (s : State) : Flit × State :=
  match examineFlit k f s with
  | (some g, t) => (g, t)
  | (none, t) => (f, if injAction (injAt s k) = 5 then injected k (startHold k t) else t)

/-! ### Flits on the wire (R220, R221) -/

/-- The 256 bytes of a flit with the header fields that each sending writes; on a module SEQD, SEQ, ACK_SEQ and NAK are 0 (R232). -/
def flitBytes (modul : Bool) (f : Flit) (ack : Nat) (nak : Bool) : List Byte :=
  let h := putField 61 3 (if f.ctrl then 0 else f.vc) ||| bitAt 60 f.ctrl ||| bitAt 59 f.soc ||| bitAt 58 f.eoc |||
    (if modul then 0 else bitAt 57 f.seqd ||| putField 45 12 f.seq.toNat ||| putField 33 12 ack ||| bitAt 32 nak) |||
    (match f.creds with
      | some (v, n) => putField 29 3 v ||| putField 24 5 n
      | none => 0)
  let b := wordBytes h ++ padTo f.body 248
  let b1 := match f.flipCord with
    | some (o, m) => flipBytes o m b
    | none => b
  let w := wordAt b1 0
  let crc := crc24 (wordBytes (setField w 0 24 0) ++ b1.drop 8)
  let b2 := wordBytes (setField w 0 24 crc.toNat) ++ b1.drop 8
  match f.flipFlit with
  | some (o, m) => flipBytes o m b2
  | none => b2

/-- FLIT_CRC of received bytes agrees (R221). -/
def flitOk (b : List Byte) : Bool :=
  let w := wordAt b 0
  decide ((crc24 (wordBytes (setField w 0 24 0) ++ b.drop 8)).toNat = fieldOf w 0 24)

/-- A flit that carries nothing but its header (R223). -/
def nopFlit : Flit :=
  { vc := 0, ctrl := true, soc := false, eoc := false, seqd := false, seq := 0, body := [], flipCord := none, flipFlit := none,
    dropped := false, creds := none, plan := noPlan, step := 0, last := false }

/-- A control flit with up to three messages (R223). -/
def ctrlFlit (ms : List Msg) : Flit := { nopFlit with seqd := true, body := (ms.map msgBytes).flatten }

/-- A VC4 flit with up to three management messages (R224). -/
def mgmtFlit (ms : List Msg) : Flit := { nopFlit with vc := 4, ctrl := false, soc := true, eoc := true, seqd := true,
                                                      body := (ms.map msgBytes).flatten }

/-- Flit `i` of a cord (R222). -/
def dataFlit (vc i : Nat) (c : Cord) : Flit :=
  let b := cordBytes c
  { nopFlit with vc := vc, ctrl := false, soc := i == 0, eoc := decide (b.length ≤ 248 * (i + 1)), seqd := true,
                 body := slice b (248 * i) 248, plan := cPlan c, step := cStep c }

/-- The unit that takes in a cord received at a link (R10, R12, R15): a kiln unit for a cord that is combined or copied on; the stop that the
plan engine shares with the finishing stage for a seal broadcast or launch-check result; the segment of its tile for a RESTORE cord; and the
link itself for a PASS or MIRROR cord, whose leaf it then goes to, and for an acknowledgement. -/
def intakeUnit (s : State) (k vc : Nat) (c : Cord) : Nat :=
  if cKind c ≤ 6 ∨ (cKind c = 9 ∧ vc = 0 ∧ cIdx c ≠ 1) then kilnCode s (cIdx c)
  else if cKind c = 9 then unitFS
  else if cKind c = 10 then (physOf s (cTile c)).elim (unitLink k) (fun t => unitSeg (segOf t))
  else unitLink k

/-- VC4 flits in a link's receive buffer: those with a message that waits at the link's stop, or at the link for the time unit, each flit by
the number that its messages share (R254). -/
def rxMessages (s : State) (k : Nat) : Nat :=
  let mgmt := fun (a : Arrival) => match a.body with
    | .mgmt _ => true
    | _ => false
  let here := fun (a : Arrival) => match a.src with
    | .link j _ => linkNo j == k
    | _ => false
  (((s.fabric.items.filter (fun it => it.src == stopOf (unitLink k) && it.vc == 4 && !it.again && it.sent.isEmpty && mgmt it.item)).map
      (fun it => it.item.seq)) ++
    ((s.inbox.filter (fun a => here a && (match a.body with
        | .mgmt m => mType m == 1
        | _ => false))).map (fun a => a.seq))).eraseDups.length

/-- Flits of a channel in a link's receive buffer (R254): those of the cord being received, of protocol 2 halves that wait, of cords that the
link itself took in, and of items that its ring stop has yet to inject. -/
def rxOccupied (s : State) (k v : Nat) : Nat :=
  let l := linkAt s k
  let cord := fun (it : RingItem) => match it.item.body with
    | .cord _ => true
    | _ => false
  ceilDiv ((chanAt l v).partialRx.getD []).length 248 +
  ((l.halves.filter (fun h => h.1 == v)).map (fun h => flitsOf h.2)).sum +
  (s.inbox.map (fun a => match a.src, a.body with
    | .link j _, .cord c => if linkNo j == k && a.vc == v && a.buf.isNone && intakeUnit s k v c == unitLink k then flitsOf c else 0
    | _, _ => 0)).sum +
  (if v = 4 then rxMessages s k else (s.fabric.items.map (fun it =>
    if it.src == stopOf (unitLink k) && it.vc == v && !it.again && !it.void && cord it then it.flits - it.sent.length else 0)).sum)

/-- Credits of a channel to return: the flits accepted and no longer in the receive buffer, less the credits returned (R254). -/
def owed (s : State) (k v : Nat) : Nat := if isEth s k then 0 else (chanAt (linkAt s k) v).rxHeld - rxOccupied s k v

/-- The credits that a flit can return now: the lowest channel that owes any, up to 31 flits (R254). -/
def owedCredits (s : State) (k : Nat) : Option (Nat × Nat) :=
  ([0, 1, 2, 3, 4].find? (fun v => decide (0 < owed s k v))).map (fun v => (v, min (owed s k v) 31))

/-- The credits that a flit reported have been returned. Those in a NOP flit that the peer discards are carried again by a later flit (R228,
R254): whether it was discarded is a free value, log 71. -/
def creditsSent (k : Nat) (f : Flit) (s : State) : State :=
  match f.creds with
  | none => s
  | some (v, n) =>
    let back := setChan k v (fun c => { c with rxHeld := c.rxHeld - n }) s
    if f.seqd || isModule k then back else useFree (if Config.freeLost s.free then s else back)

/-- A flit leaves on the wire: a new one takes the next SEQ, its credits, and at L2 and L3 a place in the replay buffer; a replayed one goes
out again with its SEQ and credits, and only INCLUDE_RESEND lets the injector act on it (R227, R229, R254, R423). A port puts it in the group
that it fills (R226). -/
def sendFlit (k : Nat) (f : Flit) (again : Bool) (s : State) : State :=
  let l := linkAt s k
  let m := isModule k
  let p := if again && f.seqd && injResend (injAt s k) then injectFlit k f s else (f, s)
  let g := if again then p.1 else { p.1 with seq := if f.seqd && !m then l.nextSeq else 0, creds := owedCredits s k }
  let out := if g.dropped then [] else [flitBytes m g l.ackSeq.toNat l.nak]
  let s1 := setLink k (fun x =>
    let y := { x with
      wire := x.wire ++ out, nak := false, ackDue := 0,
      nextSeq := if f.seqd && !m && !again then x.nextSeq + 1 else x.nextSeq,
      replay := if f.seqd && !m && !again then x.replay ++ [{ g with flipCord := none, flipFlit := none, dropped := false }] else x.replay }
    if m then y else out.foldl (fun z b => frameFlit b z) y) p.2
  if again then s1 else creditsSent k g s1

/-- The oldest unacknowledged cord of a channel has been acknowledged (R209). -/
def popUnacked (k v : Nat) (s : State) : State :=
  match (linkAt s k).unacked.find? (fun u => u.vc == v) with
  | none => s
  | some u => ackCord (linkLevel s k) v u.cord (setLink k (fun l => { l with unacked := l.unacked.erase u }) s)

/-- The module's adapter, or an acknowledgement at L2 and L3, covers a flit: with a cord's last flit the cord is acknowledged. -/
def flitAcked (k : Nat) (f : Flit) (s : State) : State :=
  if !f.ctrl && f.last && decide (f.vc ≤ 3) then popUnacked k f.vc s else s

/-- The three message slots of a flit's body. -/
def slotsOf (body : List Byte) : List Msg := [0, 64, 128].map (fun o => msgOfBytes (slice body o 64))

/-- The width of a degrade takes effect: sequenced transmission stops and the port retrains (R230). -/
def widthChange (k : Nat) (s : State) : State := setLink k (fun l => { l with state := .degrading, resend := [] }) s

/-- Send one flit of the transmit queue; at L1 the adapter accepts it at once (R209). With a DEGRADE_ACK the width changes (R230). -/
def leave (k : Nat) (s : State) : State :=
  match (linkAt s k).txq with
  | [] => s
  | f :: rest =>
    let s1 := sendFlit k f false (setLink k (fun l => { l with txq := rest }) s)
    if isModule k then flitAcked k f s1
    else if f.ctrl && (slotsOf f.body).any (fun m => mType m == 5) && (linkAt s k).degrade.isSome then widthChange k s1
    else s1

/-! ### Protocol 2 (R247, R248) -/

/-- A cord is split on a protocol 2 port: all but SEAL, BARRIER and VOTE (R247). -/
def splits (c : Cord) : Bool := decide (cKind c ≠ 9 ∧ cKind c ≠ 5 ∧ cKind c ≠ 6)

/-- MAXLOC rows: by the plan entry, for cords in its format. -/
def cordMl (s : State) (c : Cord) : Bool :=
  match entryAt s (cPlan c) with
  | some e => decide (cKind c ≤ 8) && eMl e && cFmt c == eFmt e
  | none => false

/-- Bytes of a row of the cord of index `idx` on channel `v`: a descending cord keeps the format code of its plan entry (R56), and its rows are
those of the landed format (R52, R112). -/
def cordRowBytes (s : State) (v idx : Nat) (c : Cord) : Nat :=
  rowBytes (cordMl s c) (match entryAt s (cPlan c) with
    | some e => if v = 1 ∧ cKind c ≤ 4 then landedFmt s e idx else cFmt c
    | none => cFmt c)

/-- A cord with another PROTOCOL and CORD_INDEX, its CRC recomputed. -/
def reproto (p idx : Nat) (c : Cord) : Cord :=
  sealCrc { c with w0 := setField c.w0 56 8 p, w1 := setField c.w1 0 16 idx } 0

/-- The halves of a cord for a protocol 2 port (R248). -/
def halvesOf (s : State) (v : Nat) (c : Cord) : List Cord :=
  if !splits c then [reproto 2 (cIdx c) c]
  else
    let rb := cordRowBytes s v (cIdx c) c
    let r0 := min (cRows c) (fullRows (cordMl s c) (cFmt c) / 2)
    let part := fun (idx lo n : Nat) =>
      let h := { setMask c ((cMask c >>> lo) % 2 ^ n) with payload := slice c.payload (lo * rb) (n * rb) }
      reproto 2 idx { h with w2 := setField h.w2 16 16 n }
    [part (2 * cIdx c) 0 r0, part (2 * cIdx c + 1) r0 (cRows c - r0)]

/-- The cords that carry a queued cord over a link: on a protocol 2 port its halves (R248). -/
def wireCords (s : State) (k v : Nat) (c : Cord) : List Cord := if isP2 s k then halvesOf s v c else [c]

/-- Flit `i` of the cords that carry one cord; the last flit of the last of them ends it (R222, R248). -/
def wireFlit (v : Nat) : List Cord → Nat → Flit
  | [], _ => nopFlit
  | c :: cs, i =>
    if i < flitsOf c then let f := dataFlit v i c; { f with last := f.eoc && cs.isEmpty }
    else wireFlit v cs (i - flitsOf c)

/-- A cord that a protocol 2 port may not send: one in an MX format (R247). -/
def barred (s : State) (k : Nat) (c : Cord) : Bool := isP2 s k && splits c && isMx (cFmt c)

/-- A drain marker of a channel of a link, or of one of its flows, is on its way to it over the rings (R11). -/
def markComing (s : State) (k f v : Nat) : Bool :=
  s.fabric.items.any (fun it => it.vc == v && isMark it.item && decide (it.item.src = .link (linkOf k) f) &&
    it.dests.contains (stopOf (unitLink k)))

/-- Two halves belong to one cord. -/
def sameCord (a b : Cord) : Bool :=
  cKind a == cKind b && cPlan a == cPlan b && cStep a == cStep b && cEpoch a == cEpoch b && cSource a == cSource b &&
    cTile a == cTile b && cTarget a == cTarget b && cIdx a / 2 == cIdx b / 2 && cIdx a != cIdx b

/-- Two halves joined (R248). -/
def joinHalves (lo hi : Cord) : Cord :=
  let m := cMask lo ||| (cMask hi <<< cRows lo)
  let c := setMask { lo with payload := lo.payload ++ hi.payload } m
  reproto 3 (cIdx lo / 2) { c with w2 := setField (setField c.w2 16 16 (cRows lo + cRows hi)) 0 16 (cFlags lo ||| cFlags hi) }

/-! ### What a received cord meets first (R51, R90, R217, R219) -/

/-- Codes that are reserved: PROTOCOL other than the link's, KIND above RESTORE, FORMAT 0xB to 0xE. -/
def reservedCode (p2 : Bool) (c : Cord) : Bool :=
  decide (cProto c ≠ if p2 then 2 else 3) || decide (10 < cKind c) || !fmtKnown (cFmt c)

/-- TARGET_MEMBER names a node that this instance computes, or its own logical die index (R217). -/
def namesHere (s : State) (c : Cord) : Bool :=
  myDie s == some (cTarget c) ||
    s.kiln.groups.any (fun g => (myNodes s g).any (fun n => decide (1 ≤ n.1) && n.2 == cTarget c))

/-- The die of the package to which a cord received on a module goes on (R212): it has a direct module from here. -/
def relayDest (s : State) (vc : Nat) (c : Cord) : Option Nat :=
  let inst := if vc = 0 ∧ cKind c ≤ 6 then
      (match (entryAt s (cPlan c)).bind (entryGroup s) with
        | some g => siteOf s.kiln.places g.num 1 (cTarget c) (cIdx c)
        | none => none)
    else if vc = 0 ∧ cKind c = 9 then
      (match groupNow s (sealGroup s) with
        | some g => siteOf s.kiln.places g.num 1 (cTarget c) (cIdx c)
        | none => none)
    else some (holderOf s (cTarget c))
  match inst with
  | some i => if i ≠ me s ∧ (myDie s).isSome ∧ !(moduleSet s i).isEmpty then some i else none
  | none => none

/-- What a link has received goes to the unit that takes it in, over the rings but for what the link itself takes. -/
def toUnit (k unit vc : Nat) (a : Arrival) (s : State) : State :=
  if unit = unitLink k then deliver a s else toStops (unitLink k) [unit] vc a [] s

/-- What is received takes the next number in the order of receipt. -/
def nextSeq (s : State) : State := { s with fabric := { s.fabric with nextId := s.fabric.nextId + 1 } }

/-- What a module received for another die of the package goes on over this die's rings, in its channel, to the first working module to that
die (R212). -/
def relayOn (k inst vc : Nat) (b : Body) (s : State) : State :=
  match moduleSet s inst with
  | (q, _) :: _ => toStops (unitLink k) [unitLink q] vc { src := .link (linkOf q) 0, vc := vc, body := b, seq := s.fabric.nextId, relay := true } []
      (nextSeq (setLink q (fun l => { l with relaying := true }) (setLink k (fun l => { l with relaying := true }) s)))
  | [] => linkError k 0 0 3 s

/-- A received cord that passed its checks, with the buffer that a hall unit was in: put on the rings to the unit that takes it in, or
relayed (R212). -/
def takeIn (k flow vc : Nat) (buf : Option Nat) (bad : Bool) (c : Cord) (s : State) : State :=
  let relay := if isModule k then relayDest s vc c else none
  let mine := (decide (vc ≠ 0) && myDie s == some (cTarget c)) || (namesHere s c && relay.isNone)
  if mine then toUnit k (intakeUnit s k vc c) vc
    { src := .link (linkOf k) flow, vc := vc, body := .cord c, buf := buf, bad := bad, seq := s.fabric.nextId } (nextSeq s)
  else match relay with
    | some i => relayOn k i vc (.cord c) s
    | none => linkError k (cPlan c) (cIdx c) 3 (if isModule k then s else withSome buf (linkCtr k 0x108 1 s) giveBuf)

/-- A protocol 2 half that passed its checks joins its other half, or waits for it (R248). -/
def takeHalf (k vc : Nat) (c : Cord) (s : State) : State :=
  if !splits c then takeIn k 0 vc none false (reproto 3 (cIdx c) c) s
  else match (linkAt s k).halves.find? (fun h => h.1 == vc && sameCord c h.2) with
    | none => setLink k (fun l => { l with halves := l.halves ++ [(vc, c)] }) s
    | some h =>
      let s1 := setLink k (fun l => { l with halves := l.halves.erase h }) s
      takeIn k 0 vc none false (if cIdx c % 2 = 0 then joinHalves c h.2 else joinHalves h.2 c) s1

/-- A cord that fails its CRC after its flits passed is an integrity error of the link, which makes the step unclean (R219). R417 gives a
module no counter of its own for it: FLIT_CRC_ERRORS counts it there. DESIGN CHOICE, log 69. -/
def cordCrcError (k : Nat) (c : Cord) (s : State) : State :=
  raiseUnclean uLinkIntegrity (logEv 0x060B (unitLink k) (argPC (cPlan c) (cIdx c)) (cSource c) (linkCtr k (if isModule k then 0xC0 else 0xF8) 1 s))

/-- A whole cord of a link's channel with its CRC right: its codes, then where it goes (R51, R90); reserved bits of it are ignored (R7). -/
def checkCord (k vc : Nat) (c : Cord) (s : State) : State :=
  if reservedCode (isP2 s k) c then linkError k (cPlan c) (cIdx c) 1 s
  else
    let d := cleanse (isP2 s k) c
    if isP2 s k then takeHalf k vc d s else takeIn k 0 vc none false d s

/-! ### Retrains and degrade (R229, R230) -/

/-- The configured lane mask of a WIDTH code: 0 x2, 1 x4, 2 x8. -/
def widthMask (w : Nat) : BitVec 8 := if w = 0 then 0x03 else if w = 1 then 0x0F else 0xFF

/-- The next narrower width with a whole lane group among the good lanes, the lowest (R230). -/
def narrower (w : Nat) (good : BitVec 8) : Option (Nat × BitVec 8) :=
  let whole := fun (m : BitVec 8) => good &&& m == m
  if w = 2 then ([0x0F, 0xF0].find? whole).map (fun m => (1, m))
  else if w = 1 then ([0x03, 0x0C, 0x30, 0xC0].find? whole).map (fun m => (0, m))
  else none

/-- DEGRADE_REQ or DEGRADE_ACK. -/
def mkDegrade (type w : Nat) (m : BitVec 8) : Msg :=
  { msgZero with m0 := putField 56 8 type ||| putField 48 8 w ||| putField 40 8 m.toNat }

/-- A spare that will not serve is unwired and its domain banked (R245). -/
def unwire (k : Nat) (s : State) : State :=
  if k < 18 ∧ (linkAt s k).role = 1 then leaveDom false (domLink k) (setLink k (fun l => { l with role := 3 }) s) else s

/-- A link fails; a spare that fails is unwired. -/
def linkFails (k reason : Nat) (s : State) : State := unwire k (failLink k reason s)

/-- A port asks for a narrower width where a lane given up is in use, or in the group asked for: one step on from the width in use or asked
for. With no whole group left the port fails (R230). A width change in progress ends first. -/
def degradeTo (k : Nat) (s : State) : State :=
  let l := linkAt s k
  let now := l.degrade.getD (l.width.setWidth 8, l.lanesGood)
  if now.2 &&& l.lost = 0 || l.state == .degrading then s
  else match narrower now.1.toNat (l.lanesGood &&& ~~~l.lost) with
    | some (w, m) => ctrlOn k 0 (mkDegrade 4 w m) (setLink k (fun x => { x with
        degrade := some (BitVec.ofNat 8 w, m), ctrlQ := x.ctrlQ.filter (fun y => mType y != 4) }) s)
    | none => linkFails k 3 s

/-- A port gives up lanes (R230); an Ethernet port fails with any lane (R231). -/
def loseLanes (k : Nat) (lanes : BitVec 8) (s : State) : State :=
  if isEth s k then linkFails k 3 s else degradeTo k (setLink k (fun l => { l with lost := l.lost ||| lanes }) s)

/-- The lane that its symbol errors single out: it has some, and more than every other lane. -/
def worstLane (l : LinkSt) : Option Nat :=
  let e := fun (i : Nat) => smGet 0 l.laneErr i
  (List.range 8).find? (fun i => l.lanesGood.getLsbD i && decide (0 < e i) &&
    (List.range 8).all (fun j => j == i || decide (e j < e i)))

/-- One lane of a port. -/
def laneBit (i : Nat) : BitVec 8 := BitVec.ofNat 8 (2 ^ i)

/-- Escalation (R229): lane degrade where a lane can be singled out, else the port fails. `bad` are the lanes that are known not to be
locked; with none known the lane is singled out by its symbol errors. -/
def escalate (k : Nat) (bad : BitVec 8) (s : State) : State :=
  let lanes := if bad = 0 then ((worstLane (linkAt s k)).map laneBit).getD 0 else bad
  if lanes = 0 then linkFails k 2 s
  else loseLanes k lanes (setLink k (fun l => { l with state := .up, replays := 0, resend := l.replay }) s)

/-- Ticks in a second. -/
def secondTicks : Nat := 100000000

/-- A port makes a fast retrain; the third within 1 s escalates (R229). -/
def fastRetrain (k : Nat) (s : State) : State :=
  let now := s.time.tick.toNat
  let l := inWindow now secondTicks (linkAt s k).retrains ++ [now]
  let s1 := setLink k (fun x => { x with state := .retraining, replays := 0, retrains := l, resend := [] }) s
  let s2 := logEv 0x0602 (unitLink k) l.length 0 (linkCtr k 0xD0 1 s1)
  if 3 ≤ l.length then escalate k 0 s2 else s2

/-- Replays within the last second reach the warning threshold: a prediction is logged once each time they do (R401). -/
def replayRate (k n : Nat) (s : State) : State :=
  if n = 100 then setPend 0x20 (logEv 0x080C (unitLink k) n 100 s) else s

/-- The port replays every flit from ACK_SEQ + 1 on; after eight replays without progress it makes a fast retrain instead (R229). -/
def startReplay (k : Nat) (s : State) : State :=
  let l := linkAt s k
  if l.replay.isEmpty then s
  else if 8 ≤ l.replays then fastRetrain k s
  else
    let now := s.time.tick.toNat
    let ticks := inWindow now secondTicks l.replayTicks ++ [now]
    let oldest := (l.replay.head?.map (fun f => f.seq.toNat)).getD 0
    let s1 := setLink k (fun x => { x with resend := x.replay, replays := x.replays + 1, replayTicks := ticks }) s
    replayRate k ticks.length (logEv 0x0601 (unitLink k) l.replay.length ((oldest + 4095) % 4096) (linkCtr k 0xC0 1 s1))

/-- ACK_SEQ of a received flit: the flits that it covers leave the replay buffer (R227). -/
def takeAck (k ack : Nat) (s : State) : State :=
  let l := linkAt s k
  match l.replay.findIdx? (fun f => f.seq.toNat == ack) with
  | none => s
  | some i =>
    let gone := l.replay.take (i + 1)
    let s1 := setLink k (fun x => { x with replay := x.replay.drop (i + 1), replays := 0,
                                           resend := x.resend.filter (fun f => !gone.any (fun g => g.seq == f.seq)) }) s
    forEach gone s1 (flitAcked k)

/-- Credits returned in a flit header (R254). -/
def takeCredits (k : Nat) (h : Word) (s : State) : State :=
  let v := fieldOf h 29 3
  let n := fieldOf h 24 5
  if v ≤ 4 ∧ 0 < n then setChan k v (fun c => { c with credits := c.credits + n }) s else s

/-- The unit that takes in a message: a WINDOW, a drain marker and a management message go to the plan engine, by the stop that it shares with
the finishing stage (R10, R11); TIME_EXCHANGE and a message of the link's own protocol end at the link. -/
def messageUnit (k : Nat) (ctrl : Bool) (m : Msg) : Nat :=
  if (if ctrl then mType m = 2 ∨ mType m = 3 else mType m ≠ 1) then unitFS else unitLink k

/-- The die of the package to which a message received on a module goes on (R212): the one that a relayed control message names, or the
destination of a management message, where a module leads to it from here. -/
def relayGoal (s : State) (k : Nat) (ctrl : Bool) (m : Msg) : Option Nat :=
  if !isModule k then none
  else if ctrl then (relayTo m).filter (fun i => i != me s)
  else if mType m = 1 ∨ mDest m = me s ∨ mDest m = 0xFFFFFF ∨ (moduleSet s (mDest m)).isEmpty then none
  else some (mDest m)

/-- A message received at a link goes to the unit that takes it in, on its channel of the rings (R11), or on to another die of the package,
past this die's plan engine (R212). -/
def takeMsg (k flow : Nat) (ctrl : Bool) (num : Nat) (m : Msg) (s : State) : State :=
  let vc := msgVc ctrl m
  let b := if ctrl then Body.ctrl m else .mgmt m
  match relayGoal s k ctrl m with
  | some i => relayOn k i vc b s
  | none => toUnit k (messageUnit k ctrl m) vc { src := .link (linkOf k) flow, vc := vc, body := b, seq := num } s

/-- Take in the messages of a control flit or a VC4 flit, which share its number; a reserved type is a protocol error. -/
def takeMsgs (k flow : Nat) (ctrl : Bool) (ms : List Msg) (s : State) : State :=
  forEach (ms.filter (fun m => mType m != 0)) (nextSeq s)
    (fun m t => if 7 < mType m then linkError k 0 0 1 t else takeMsg k flow ctrl s.fabric.nextId m t)

/-- The bytes of a cord whose FORMAT is reserved, and whose row size no rule gives: it is what it says where some length within its last flit
makes its CRC agree, and it is then discarded for its code (R51). DESIGN CHOICE, log 69. -/
def reservedFits (b : List Byte) : Bool :=
  (List.range 248).any (fun d => decide (64 + d ≤ b.length) && crcOk (cordOfBytes (b.take (b.length - d))))

/-- Bytes of payload that a header announces; a protocol 2 half carries twice its cord's index, or one more (R248). -/
def payloadLen (s : State) (p2 : Bool) (v : Nat) (c : Cord) : Nat :=
  cRows c * cordRowBytes s v (if p2 && splits c then cIdx c / 2 else cIdx c) c

/-- A data flit of channel 0 to 3 (R222): cords are put together from their flits; a break of the rule discards the partial cord. -/
def takeData (k v : Nat) (soc eoc : Bool) (body : List Byte) (s : State) : State :=
  let part := (chanAt (linkAt s k) v).partialRx
  let bad := fun (p : List Byte) (t : State) =>
    let h := cordOfBytes p
    linkError k (cPlan h) (cIdx h) 2 t
  let s0 := setChan k v (fun c => { c with rxHeld := c.rxHeld + 1 }) s
  let r := match part, soc with
    | none, true => (some body, s0)
    | some p, false => (some (p ++ body), s0)
    | some p, true => (some body, bad p s0)
    | none, false => (none, bad body s0)
  match r.1 with
  | none => r.2
  | some b =>
    let s2 := heard (.link (linkOf k) 0) v (cordOfBytes b) r.2
    if !eoc then setChan k v (fun c => { c with partialRx := some b }) s2
    else
      let s1 := setChan k v (fun c => { c with partialRx := none }) s2
      let h := cordOfBytes b
      let n := payloadLen s1 (isP2 s k) v h
      let c := { h with payload := h.payload.take n }
      if !fmtKnown (cFmt h) then (if reservedFits b then linkError k (cPlan h) (cIdx h) 1 s1 else cordCrcError k h s1)
      else if h.payload.length < n || !crcOk c then cordCrcError k h s1
      else if ceilDiv (64 + n) 248 ≠ ceilDiv b.length 248 then bad b s1
      else checkCord k v c s1

/-- An accepted flit: control messages, management messages, or part of a cord. -/
def takeFlit (k : Nat) (h : Word) (body : List Byte) (s : State) : State :=
  let v := fieldOf h 61 3
  if bitOf h 60 then takeMsgs k 0 true (slotsOf body) s
  else if 4 < v then linkError k 0 0 1 s
  else
    let s1 := linkCtr k (0x48 + 0x18 * v) 1 s
    if v = 4 then takeMsgs k 0 false (slotsOf body) (setChan k 4 (fun c => { c with rxHeld := c.rxHeld + 1 }) s1)
    else takeData k v (bitOf h 59) (bitOf h 58) body s1

end Sys2Proof.Machine
end

