-- ==== Sys2Proof/Machine/HallOps.lean ====
section
/-! DEFINITION. HallOps.lean: the operations of an Ethernet-mode port: hall frames (R234 to R236), flows and their units (R237 to R242),
deficit round robin (R258), and injection on frames (R425). -/

namespace Sys2Proof.Machine

/-! ### Sequence numbers (R237) -/

/-- The next SEQ: modulo 2^32, with 0 skipped. -/
def hallNext (a : BitVec 32) : BitVec 32 := if a + 1 = 0 then 1 else a + 1

/-- How many units `a` lies after `b`, by serial-number arithmetic; `none` where it lies before. -/
def hallAhead (a b : BitVec 32) : Option Nat :=
  let d := (a - b).toNat
  if d < 2 ^ 31 then some (if a.toNat < b.toNat then d - 1 else d) else none

/-! ### Flows -/

/-- Add to a flow-view counter (R437). -/
def flowCtr (k f n : Nat) (s : State) : State := setFlow k f (fun x => { x with ctr := smMod 0 x.ctr n (fun v => min (v + 1) ctrMax) }) s

/-- Add to a counter of a port's unattributed frames. -/
def strayCtr (k n : Nat) (s : State) : State :=
  setLink k (fun l => { l with strayCtr := smMod 0 l.strayCtr n (fun v => min (v + 1) ctrMax) }) s

/-- The HALL_PEERS entries of a port. -/
def hallPeers (s : State) (k : Nat) : List HallPeer := ((effPort s k).map (fun c => c.peers)).getD []

/-- The L4 ports of the instance. -/
def hallPorts (s : State) : List Nat :=
  (List.range 18).filter (fun k => match portCfg s k with
    | some c => c.mode == 3 && c.level == 4
    | none => false)

/-- The reorder quota of a port, and its retransmit quota: an equal share of 256 buffers, the remainder to the lowest ports (R241). -/
def hallQuota (s : State) (k : Nat) : Nat :=
  let ps := hallPorts s
  match indexIn k ps with
  | none => 0
  | some i => 256 / ps.length + (if i < 256 % ps.length then 1 else 0)

/-- Units outstanding on a port. -/
def portUnits (s : State) (k : Nat) : Nat := (linkAt s k).flows.foldl (fun n p => n + p.2.units.length) 0

/-- A flow may send one more unit (R239, R241). -/
def maySend (s : State) (k f : Nat) : Bool :=
  let x := flowAt s k f
  x.state == 2 && decide (x.units.length < 128) && decide (portUnits s k < hallQuota s k)

/-- The port works as an Ethernet port now. -/
def ethLive (s : State) (k : Nat) : Bool := isEth s k && linkLive s k && (linkAt s k).state == .up

/-! ### Frames (R234 to R236) -/

/-- The two bodies of a cord's frames (R235). -/
def fragsOf (c : Cord) : List (List Byte) :=
  let p := c.payload.length
  let cut := min p (64 * ceilDiv p 128)
  [headerBytes c ++ c.payload.take cut, c.payload.drop cut]

/-- The channel by which a frame or unit is scheduled: messages and TIMING frames go by VC4. -/
def frameChan (type vc : Nat) : Nat := if type = 3 ∨ type = 4 then 4 else vc

/-- The port sends 802.1Q tags. -/
def tags (s : State) (k : Nat) : Bool := ((effPort s k).map (fun c => c.tagEn)).getD false

/-- The least body, pad included, of a 64-byte frame. -/
def minBody (tagged : Bool) : Nat := if tagged then 2 else 6

/-- Bytes of a frame with this body length, FCS included. -/
def frameLen (tagged : Bool) (n : Nat) : Nat := 58 + (if tagged then 4 else 0) + max n (minBody tagged)

/-- Wire bytes of a frame: preamble and inter-frame gap added. -/
def wireLen (tagged : Bool) (n : Nat) : Nat := frameLen tagged n + 20

/-- The held units that SACK names are whole: all frames present (R238). -/
def heldWhole (h : HallHeld) : Bool := h.whole.isSome || (h.frag0.isSome && h.frag1.isSome)

/-- SACK_LO and SACK_HI of a flow. -/
def sackOf (x : Flow) : Nat :=
  x.heldUnits.foldl (fun w h => match hallAhead h.seq x.rxAck with
    | some d => if heldWhole h && decide (1 ≤ d) && decide (d ≤ 128) then w ||| 2 ^ (d - 1) else w
    | none => w) 0

/-- H0 to H4 of a frame as it leaves (R236). -/
def hallHeader (s : State) (k : Nat) (fr : EthFrame) : List Word :=
  let x := flowAt s k fr.flow
  let peer := (hallPeers s k)[fr.flow]?
  let sack := sackOf x
  [putField 56 8 1 ||| putField 52 4 fr.type ||| putField 49 3 fr.vc ||| putField 48 1 fr.frag ||| putField 32 16 fr.body.length |||
     putField 0 32 fr.seq.toNat,
   putField 32 32 x.rxAck.toNat, BitVec.ofNat 64 sack, BitVec.ofNat 64 (sack >>> 64),
   putField 40 24 (me s) ||| putField 32 8 (actsFor s k) ||| putField 8 24 ((peer.map (fun p => p.inst)).getD 0) |||
     putField 0 8 ((peer.map (fun p => p.port)).getD 0)]

/-- The bytes of a frame on the wire, FCS included (R234). -/
def frameBytes (s : State) (k : Nat) (fr : EthFrame) : List Byte :=
  match effPort s k with
  | none => []
  | some c =>
    let mac := ((c.peers[fr.flow]?).map (fun p => p.mac)).getD 0
    let pcp := c.pcp.toNat / 2 ^ (3 * frameChan fr.type fr.vc) % 8
    let tag := if c.tagEn then beBytes 2 0x8100 ++ beBytes 2 (pcp * 2 ^ 13 + c.vlan % 4096) else []
    let head := beBytes 6 mac.toNat ++ beBytes 6 c.srcMac.toNat ++ tag ++ beBytes 2 c.etherType.toNat
    let body := match fr.flipBody with
      | some (o, m) => flipBytes o m fr.body
      | none => fr.body
    let rest := ((hallHeader s k fr).map wordBytes).flatten ++ body ++ zeros (minBody c.tagEn - body.length)
    let fcs := leBytes 4 (crc32 (head ++ rest)).toNat
    match fr.flipFrame with
    | some (o, m) => head ++ flipBytes o m (rest ++ fcs)
    | none => head ++ rest ++ fcs

/-- A frame enters the transmit queue. -/
def pushFrame (k : Nat) (fr : EthFrame) (s : State) : State := setLink k (fun l => { l with txFrames := l.txFrames ++ [fr] }) s

/-- A frame with no injection. -/
def mkFrame (flow type vc frag : Nat) (seq : BitVec 32) (body : List Byte) : EthFrame :=
  { flow := flow, type := type, vc := vc, frag := frag, seq := seq, body := body, flipBody := none, flipFrame := none, dropped := false }

/-- An ACK frame of a flow goes at the first frame boundary, ahead of what is queued (R258). -/
def pushAck (k f : Nat) (s : State) : State :=
  if (linkAt s k).txFrames.any (fun x => x.type == 1 && x.flow == f) then s
  else setLink k (fun l => { l with txFrames := mkFrame f 1 0 0 0 [] :: l.txFrames }) s

/-- An ACK frame on every flow that is not down (R245, R326). -/
def ackAllFlows (k : Nat) (s : State) : State :=
  forEach ((linkAt s k).flows.filter (fun p => p.2.state == 1 || p.2.state == 2)) s (fun p t => pushAck k p.1 t)

/-- A spare takes the position of port `p`: its role, on Ethernet its flows, and the cords kept for it; what waited for a link goes on (R244,
R246). -/
def takeOver (k p : Nat) (s : State) : State :=
  let old := linkAt s p
  let eth := isEth s k
  let s1 := setLink p (fun l => if eth then { l with flows := [], flowMgmt := [] } else l)
    (setLink k (fun l => { l with role := 2, standsFor := BitVec.ofNat 5 p, taking := none, answering := none,
                                  flows := if eth then old.flows else l.flows,
                                  flowMgmt := if eth then old.flowMgmt else l.flowMgmt }) s)
  let keep := (linkAt s1 k).unacked
  let s2 := forEach keep (setLink k (fun l => { l with unacked := [] }) s1) (fun u t => queueCord k u.flow u.vc u.cord true t)
  let s3 := logEv 0x0607 (unitLink k) p 0 s2
  unpark (if eth then ackAllFlows k s3 else s3)

/-- A DROP or CORRUPT action on a frame; `none` where it cannot apply. -/
def injFrame (u : Injector) (rest : Nat) (fr : EthFrame) : Option EthFrame :=
  let p := injFlip u
  match injAction u with
  | 1 => some { fr with dropped := true }
  | 2 => if p.1 + maskBytes p.2 ≤ rest then some { fr with flipFrame := some p } else none
  | 3 => if p.1 + maskBytes p.2 ≤ fr.body.length then some { fr with flipBody := some p } else none
  | _ => none

/-- Bytes of a frame after the EtherType. -/
def afterType (s : State) (k : Nat) (fr : EthFrame) : Nat := 40 + max fr.body.length (minBody (tags s k)) + 4

/-- The injector of a port examines an ACK frame as it leaves (R424): its H0 shows VC 0 and no cord. It waits for no grant, so a HOLD that it
starts keeps other frames back and a REORDER cannot apply. DEDUCED, log 48. -/
def injectAck (k : Nat) (fr : EthFrame) (s : State) : EthFrame × State :=
  if fr.type ≠ 1 ∨ !injActive s k ∨ !injMatches (injAt s k) (some 0) noPlan 0 false then (fr, s)
  else
    let r := countMatch k s
    if !r.2 then (fr, r.1)
    else if injAction (injAt s k) = 5 then (fr, injected k (startHold k r.1))
    else match injFrame (injAt s k) (afterType s k fr) fr with
      | some g => (g, injected k r.1)
      | none => (fr, r.1)

/-- A frame carries a SPARE_ACK (R244). -/
def carriesSpareAck (fr : EthFrame) : Bool :=
  fr.type == 3 && fr.vc == 0 && (chunks 64 (fr.body.length / 64) fr.body).any (fun b => mType (msgOfBytes b) == 7)

/-- A frame leaves on the wire with the ACK fields of its flow; with its SPARE_ACK the spare takes the position that it answers for (R244). -/
def ethLeave (k : Nat) (s : State) : State :=
  match (linkAt s k).txFrames with
  | [] => s
  | fr :: rest =>
    let r := injectAck k fr s
    let out := if r.1.dropped then [] else [frameBytes s k r.1]
    let s1 := setFlow k fr.flow (fun x => if r.1.dropped then x else { x with ackOwed := false })
      (setLink k (fun l => { l with txFrames := rest, wire := l.wire ++ out }) r.2)
    match (linkAt s1 k).answering with
    | some p => if carriesSpareAck fr then takeOver k p s1 else s1
    | none => s1

/-- An Ethernet port is UP: its flows are established by the frames of their peers (R237, R326). -/
def startFlows (k : Nat) (s : State) : State :=
  let n := (hallPeers s k).length
  match effPort s k with
  | none => s
  | some c => ackAllFlows k (setLink k (fun l => { l with
      state := .up, rate := BitVec.ofNat 2 c.rate, width := BitVec.ofNat 2 c.width, lanesGood := widthMask c.width,
      peerInst := 0xFFFFFF, peerPort := 0xFF,
      flows := (List.range n).foldl (fun m f => smMod Flow.init m f (fun x => if x.state = 0 then { x with state := 1 } else x)) l.flows }) s)

/-! ### Flows that go down (R242, R246) -/

/-- The cord buffers of a flow's units are free. -/
def freeFlow (x : Flow) (s : State) : State := forEach (x.units.map (fun u => u.buf) ++ x.heldUnits.map (fun h => h.buf)) s giveBuf

/-- A flow goes down (R242): its cords go again by what remains to the peer, or the peer is unreachable (R246). -/
def flowFails (k f reason : Nat) (s : State) : State :=
  let st := (flowAt s k f).state
  if st = 0 ∨ st = 3 then s
  else
    let cs := (unackedCords s k).filter (fun u => u.flow == f)
    let ds := (unackedDrains (linkAt s k)).filter (fun d => d.1 == f)
    let inst := peerOf s k f
    let s1 := setLink k (fun l => { l with
      chans := l.chans.map (fun ch => { ch with queue := ch.queue.filter (fun q => q.flow != f) }),
      txFrames := l.txFrames.filter (fun x => x.flow != f),
      flowMgmt := smSet [] l.flowMgmt f [] })
      (setFlow k f (fun x => { x with state := 3, units := [], heldUnits := [], ackOwed := false }) (freeFlow (flowAt s k f) s))
    let s2 := setInj k (fun u => match u.reorder with
      | some w => if w.flow = f then { u with reorder := none } else u
      | none => u) s1
    let s3 := logEv 0x060A (unitLink k) f reason s2
    if (linkSet s3 inst 4).isEmpty then (if linkLeft s3 inst 4 then s3 else peerLost inst 4 s3)
    else forEach ds (resendCords k inst 4 cs s3) (fun d t => drainTo inst 4 d.2 t)

/-! ### Units (R237, R239) -/

/-- Change a unit of a flow. -/
def setUnit (k f : Nat) (seq : BitVec 32) (g : HallUnit → HallUnit) (s : State) : State :=
  setFlow k f (fun x => { x with units := x.units.map (fun u => if u.seq = seq then g u else u) }) s

/-- The retransmissions of a flow in the last second reach 1% of its units: a prediction is logged (R401). -/
def hallRate (k f : Nat) (s : State) : State :=
  let x := flowAt s k f
  let n := x.reTicks.length
  let m := x.txTicks.length
  if m ≤ 100 * n ∧ 100 * (n - 1) < m then setPend 0x20 (logEv 0x080C (unitLink k) n (ceilDiv m 100) s) else s

/-- A REORDER of the port's injector holds a unit back (R425). -/
def heldUnit (s : State) (k f : Nat) (seq : BitVec 32) : Bool :=
  (injAt s k).reorder.any (fun w => w.flow == f && w.seq == seq)

/-- A unit is retransmitted whole with the same SEQ (R239); sent 32 times, it takes its flow down (R242). -/
def retransmit (k f : Nat) (seq : BitVec 32) (s : State) : State :=
  match (flowAt s k f).units.find? (fun u => u.seq == seq) with
  | none => s
  | some u =>
    if !u.resend.isEmpty || u.lastTx = 0 || heldUnit s k f seq then s
    else
      let now := s.time.tick.toNat
      let s1 := setUnit k f seq (fun y => { y with resend := List.range y.bodies.length, sends := y.sends + 1 })
        (setFlow k f (fun x => { x with reTicks := inWindow now secondTicks x.reTicks ++ [now],
                                        txTicks := inWindow now secondTicks x.txTicks }) s)
      let s2 := hallRate k f (logEv 0x0608 (unitLink k) f seq.toNat (flowCtr k f 2 s1))
      if 32 ≤ u.sends + 1 then flowFails k f 2 s2 else s2

/-- ACK_SEQ and SACK of a received frame: units before ACK_SEQ are acknowledged; one that at least 3 units first sent after its last
transmission have overtaken is retransmitted (R239). -/
def takeHallAck (k f : Nat) (ack : BitVec 32) (sack : Nat) (s : State) : State :=
  let x := flowAt s k f
  let passed := fun (u : HallUnit) => (hallAhead u.seq ack).isNone
  if (hallAhead x.nextSeq ack).isNone then s
  else
    let gone := x.units.filter passed
    let s1 := setFlow k f (fun y => { y with units := y.units.filter (fun u => !passed u) }) (forEach gone s (fun u t => giveBuf u.buf t))
    let held := fun (u : HallUnit) => match hallAhead u.seq ack with
      | some d => decide (1 ≤ d) && sack.testBit (d - 1)
      | none => false
    let us := (flowAt s1 k f).units
    forEach (us.filter (fun u => !held u && u.resend.isEmpty && u.lastTx != 0 &&
        decide (3 ≤ (us.filter (fun w => held w && decide (u.lastTx < w.firstTx))).length))) s1
      (fun u t => retransmit k f u.seq t)

/-- A unit of a flow takes the next SEQ and a buffer of the retransmit half; its cord carries the SEQ as HALL_SEQ (R237, R239, R241). -/
def openUnit (k f : Nat) (u : HallUnit) (s : State) : State :=
  let x := flowAt s k f
  let c := u.cord.map (fun c => sealCrc c x.nextSeq.toNat)
  let bodies := match c with
    | some d => fragsOf d
    | none => u.bodies
  let now := s.time.tick.toNat
  let b := pickBuf s ((u.cord.map cIdx).getD 0)
  flowCtr k f 0 (setFlow k f (fun y => { y with
    nextSeq := hallNext y.nextSeq, txTicks := inWindow now secondTicks y.txTicks ++ [now],
    units := y.units ++ [{ u with seq := y.nextSeq, cord := c, buf := b.getD noBuf, bodies := bodies, resend := List.range bodies.length }] })
    (withSome b s (fun b t => takeBuf b .hall t)))

/-- A unit before it has its SEQ. -/
def protoUnit (vc type : Nat) (bodies : List (List Byte)) (c : Option Cord) (again : Bool) : HallUnit :=
  { seq := 0, vc := vc, type := type, bodies := bodies, cord := c, again := again, buf := noBuf, resend := [], sends := 1, firstTx := 0, lastTx := 0 }

/-- The frame that waits first on a channel among the units already numbered: retransmissions go ahead of others (R258). -/
def waitingUnit (s : State) (k v : Nat) : Option (Nat × HallUnit) :=
  let us := (linkAt s k).flows.flatMap (fun p =>
    (p.2.units.filter (fun u => !u.resend.isEmpty && frameChan u.type u.vc == v)).map (fun u => (p.1, u)))
  match us.find? (fun p => decide (1 < p.2.sends)) with
  | some p => some p
  | none => us.head?

/-- The messages of a flow that go in its next MGMT frame: up to 128 of one kind (R237). At L4 the types of control and management messages
overlap, so H0's VC tells them apart: 0 for control messages (log 10). -/
def mgmtRun (q : List (Bool × Msg)) : List (Bool × Msg) :=
  match q.filter (fun p => !(p.1 && mType p.2 == 2)) with
  | [] => []
  | p :: ps => ((p :: ps).takeWhile (fun x => x.1 == p.1)).take 128

/-- The next new unit of a channel, with the state that no longer queues it: a drain marker, then the first cord whose flow may send, or on
VC4 messages. -/
def newUnit (s : State) (k v : Nat) : Option (Nat × HallUnit × State) :=
  let l := linkAt s k
  let less := fun (f : Nat) (ms : List (Bool × Msg)) =>
    setLink k (fun x => { x with flowMgmt := smMod [] x.flowMgmt f (fun q => ms.foldl (fun a m => a.erase m) q) }) s
  let isMarker := fun (m : Bool × Msg) => m.1 && mType m.2 == 2 && fieldOf m.2.m0 53 3 == v
  match l.flowMgmt.findSome? (fun p => if maySend s k p.1 then (p.2.find? isMarker).map (fun m => (p.1, m)) else none) with
  | some (f, m) => some (f, protoUnit v 2 [msgBytes m.2] none false, less f [m])
  | none =>
    if v = 4 then
      match l.flowMgmt.find? (fun p => maySend s k p.1 && !(mgmtRun p.2).isEmpty) with
      | some (f, q) =>
        let ms := mgmtRun q
        some (f, protoUnit (if (ms.head?.map Prod.fst).getD false then 0 else 4) 3 [(ms.map (fun m => msgBytes m.2)).flatten] none false, less f ms)
      | none => none
    else
      let q := (chanAt l v).queue
      match q.findIdx? (fun x => maySend s k x.flow && !markComing s k x.flow v) with
      | none => none
      | some i => (q[i]?).map (fun x =>
          (x.flow, protoUnit v 0 (fragsOf x.cord) (some x.cord) x.again, setChan k v (fun c => { c with queue := dropAt c.queue i }) s))

/-- The body length of a channel's head unit, if it has one. -/
def headUnit (s : State) (k v : Nat) : Option Nat :=
  match waitingUnit s k v with
  | some (_, u) => some (((u.bodies[u.resend.headD 0]?).getD []).length)
  | none => (newUnit s k v).map (fun p => ((p.2.1.bodies[0]?).getD []).length)

/-- The body length of a channel's head frame, if it has one; on VC4 a TIMING frame goes before messages. -/
def headBody (s : State) (k v : Nat) : Option Nat :=
  if heldBack s k v then none
  else match (linkAt s k).timingQ with
  | p :: _ => if v = 4 then some p.2.length else headUnit s k v
  | [] => headUnit s k v

/-! ### Injection on frames (R423 to R425) -/

/-- A REORDER wait ends: the waiting cord goes back to the head of its channel, after a part-sent one; a unit of a hall flow may be sent. -/
def releaseReorder (k : Nat) (s : State) : State :=
  match (injAt s k).reorder with
  | none => s
  | some w =>
    let s1 := setInj k (fun u => { u with reorder := none }) s
    if isEth s k then setUnit k w.flow w.seq (fun u => { u with resend := w.frames, seen := true }) s1
    else setChan k w.vc (fun c =>
      let q : TxCord := { cord := w.cord, sent := 0, flow := w.flow, again := false, void := false, mark := none, seen := 1 }
      { c with queue := c.queue.filter (fun x => decide (0 < x.sent)) ++ q :: c.queue.filter (fun x => x.sent == 0) }) s1

/-- The plan index and step by which an injector matches a unit. -/
def unitKey (u : HallUnit) : Nat × Nat :=
  match u.type, u.bodies with
  | 0, b :: _ => (cPlan (cordOfBytes b), cStep (cordOfBytes b))
  | _, _ => (noPlan, 0)

/-- The injector of a port examines the frame of a unit that goes next (R423, R424): a frame once in each transmission, the first transmission
of a re-send under R44 or R246 never, and a retransmission with INCLUDE_RESEND. -/
def examines (i : Injector) (u : HallUnit) : Bool := !u.seen && (if u.sends = 1 then !u.again else injResend i)

/-- What the injector of a port does to a frame that is granted (R425): the frame to send, or none where it waits, and the state. REORDER
holds what is left of the frame's unit; a TIMING frame is no unit of a flow, and no REORDER holds it. -/
def injectHall (k f : Nat) (u : HallUnit) (fr : EthFrame) (s : State) : Option EthFrame × State :=
  let i := injAt s k
  let key := unitKey u
  let wait := fun (t : State) => setLink k (fun l => if u.type = 4 then { l with vc4Seen := true } else l)
    (setUnit k f u.seq (fun y => { y with seen := true }) t)
  if !examines i u || !injActive s k || !injMatches i (some (frameChan u.type u.vc)) key.1 key.2 (fr.frag == 0) then (some fr, s)
  else
    let r := countMatch k s
    if !r.2 then (some fr, r.1)
    else match injAction i with
      | 4 =>
        if u.type ≠ 4 ∧ i.reorder.isNone then
          let w : Wait := { vc := u.vc, flow := f, left := fieldOf i.param 25 7, seq := u.seq, cord := u.cord.getD (cordOfBytes []),
                            frames := u.resend }
          (none, injected k (setInj k (fun x => { x with reorder := some w }) (setUnit k f u.seq (fun y => { y with resend := [] }) r.1)))
        else (some fr, r.1)
      | 5 => (none, injected k (startHold k (wait r.1)))
      | _ => (match injFrame i (afterType s k fr) fr with
          | some g => (some g, injected k r.1)
          | none => (some fr, r.1))

/-- A later unit of a flow has been sent: a REORDER wait of the flow counts it (R425). -/
def countHallReorder (k f : Nat) (u : HallUnit) (s : State) : State :=
  match (injAt s k).reorder with
  | none => s
  | some w =>
    if w.flow ≠ f ∨ u.sends ≠ 1 ∨ (hallAhead u.seq w.seq).isNone ∨ u.seq = w.seq then s
    else if w.left ≤ 1 then releaseReorder k s
    else setInj k (fun x => { x with reorder := some { w with left := w.left - 1 } }) s

/-! ### Transmission (R258) -/

/-- A unit's frames have all been sent once: its cord, of which the retransmit store holds a copy, is acknowledged at L4 (R208, R209). -/
def hallForwarded (u : HallUnit) (s : State) : State :=
  match u.cord with
  | some c => if u.sends = 1 then ackCord 4 u.vc c s else s
  | none => s

/-- Grant the first waiting frame of a numbered unit. -/
def grantFrame (k f : Nat) (u : HallUnit) (s : State) : State :=
  match u.resend with
  | [] => s
  | i :: rest =>
    let fr := mkFrame f u.type u.vc i u.seq ((u.bodies[i]?).getD [])
    match injectHall k f u fr s with
    | (none, t) => t
    | (some g, t) =>
      let at1 := (flowAt t k f).txCount + 1
      let s1 := setUnit k f u.seq (fun y => { y with
        resend := rest, seen := false, firstTx := if y.firstTx = 0 then at1 else y.firstTx, lastTx := if rest.isEmpty then at1 else y.lastTx }) t
      let s2 := pushFrame k g (setFlow k f (fun x => { x with txCount := at1 }) s1)
      if rest.isEmpty then hallForwarded u (countHallReorder k f u s2) else s2

/-- Grant a TIMING frame (R281). -/
def grantTiming (k f : Nat) (b : List Byte) (s : State) : State :=
  match injectHall k f { protoUnit 4 4 [b] none false with seen := (linkAt s k).vc4Seen } (mkFrame f 4 4 0 0 b) s with
  | (none, t) => t
  | (some g, t) => pushFrame k g (setLink k (fun l => { l with timingQ := l.timingQ.drop 1, vc4Seen := false }) t)

/-- Grant the head frame of a channel's units. -/
def grantUnit (k v : Nat) (s : State) : State :=
  match waitingUnit s k v with
  | some (f, u) => grantFrame k f u s
  | none => match newUnit s k v with
    | some (f, u, t) =>
      let t1 := openUnit k f u t
      (match (flowAt t1 k f).units.getLast? with
        | some x => grantFrame k f x t1
        | none => t1)
    | none => s

/-- Grant the head frame of a channel. -/
def grantHead (k v : Nat) (s : State) : State :=
  match (linkAt s k).timingQ with
  | p :: _ => if v = 4 then grantTiming k p.1 p.2 s else grantUnit k v s
  | [] => grantUnit k v s

/-- Deficit round robin: visit channels until a head frame is covered (R258). -/
def drr (k : Nat) : Nat → State → State
  | 0, s => s
  | n + 1, s =>
    let l := linkAt s k
    let v := l.turn
    match headBody s k v with
    | none => drr k n (setLink k (fun x => { x with turn := (v + 1) % 5, taken := 0 }) (setChan k v (fun c => { c with deficit := 0 }) s))
    | some b =>
      let s1 := if l.taken = 0 then setLink k (fun x => { x with taken := 1 })
          (setChan k v (fun c => { c with deficit := c.deficit + 256 * ((weights s)[v]?).getD 1 }) s) else s
      let cost := wireLen (tags s k) b
      if cost ≤ (chanAt (linkAt s1 k) v).deficit then grantHead k v (setChan k v (fun c => { c with deficit := c.deficit - cost }) s1)
      else drr k n (setLink k (fun x => { x with turn := (v + 1) % 5, taken := 0 }) s1)

/-- FLIT_TRANSMIT on an Ethernet-mode port: one frame is granted while the queue of 16,384 bytes takes the largest head frame that waits. -/
def ethTransmit (k : Nat) (s : State) : State :=
  let heads := [0, 1, 2, 3, 4].filterMap (headBody s k)
  let room := (linkAt s k).txFrames.foldl (fun n x => n + frameLen (tags s k) x.body.length) 0
  if !ethLive s k || heads.isEmpty || decide (16384 < room + frameLen (tags s k) (heads.foldl max 0)) then s else drr k 256 s

/-! ### Reception (R240, R241, R243) -/

/-- The HALL_PEERS entry that H4 names: this instance and port as the receiver, and the entry's as the sender. -/
def flowNamed (s : State) (k : Nat) (h4 : Word) : Option Nat :=
  if fieldOf h4 8 24 = me s ∧ fieldOf h4 0 8 = actsFor s k then
    (hallPeers s k).findIdx? (fun p => p.inst == fieldOf h4 40 24 && p.port == fieldOf h4 32 8)
  else none

/-- A frame is discarded under R243, counted against the flow that H4 names. -/
def dropFrame (k n : Nat) (h4 : Word) (s : State) : State :=
  match flowNamed s k h4 with
  | some f => flowCtr k f n s
  | none => strayCtr k n s

/-- Deliver a unit in order with its buffer: a cord, without the reserved bits (R7), to its place, messages to the inbox (R240). -/
def deliverUnit (k f : Nat) (h : HallHeld) (buf : Option Nat) (s : State) : State :=
  if h.void then s
  else match h.whole with
    | some b => takeMsgs k f (h.type == 2 || h.vc != 4) ((chunks 64 (b.length / 64) b).map msgOfBytes) s
    | none =>
      let c := cordOfBytes (h.frag0.getD [] ++ h.frag1.getD [])
      if reservedCode false c || decide (3 < h.vc) then linkError k (cPlan c) (cIdx c) 1 (withSome buf s giveBuf)
      else takeIn k f h.vc buf h.bad (cleanse false c) s

/-- The use to which the buffer of an in-order cord is put where the cord is delivered (R241): the control reserve for a SEAL cord; its node's
claim or the PASS hold; the arrival reserve for one that comes before this instance opens or before its claim is admitted, that has no claim to go
to, or that shows no header yet. None where that is full. `some none`: its node holds a result buffer for it already (R193). -/
def destUse (s : State) (k : Nat) (h : HallHeld) : Option (Option BufUse) :=
  let c := cordOfBytes (h.frag0.getD [])
  let room := fun (u : BufUse) (n : Nat) => if usedBut s u h.buf < n then some (some u) else none
  let arrival := room .arrival (policy s (fun p => p.arrivalReserve) 64)
  let claims := (s.kiln.nodes.filter (fun x => x.plan == cPlan c && x.admitted)).foldl (fun a x => a + x.claim) 0
  if h.frag0.isNone ∨ !(running s && cStep c == stepNo s) then arrival
  else if cKind c = 9 then room .control 128
  else if cKind c = 7 ∧ h.vc = 2 then
    (match s.kiln.passHolds.find? (fun p => p.plan == cPlan c) with
      | some p => if p.admitted then room (.permit (cPlan c)) p.claim else arrival
      | none => arrival)
  else if 6 < cKind c then arrival
  else match findNode s (cPlan c) (nodeId (if h.vc = 1 then linkLevel s k - 1 else linkLevel s k) (cTarget c)) with
    | some x =>
      if h.vc = 1 ∧ x.results.any (fun r => r.1 == cIdx c) then some none
      else if x.admitted && x.claim != 0 then room (.node (cPlan c)) claims
      else arrival
    | none => arrival

/-- The buffer in which a whole unit is delivered, and the state with it put to its use; none where its place is full (R240, R241). -/
def placeUnit (k : Nat) (h : HallHeld) (s : State) : Option (Option Nat × State) :=
  if h.type ≠ 0 ∨ h.void then some (none, giveBuf h.buf s)
  else match destUse s k h with
    | none => none
    | some none => some (none, giveBuf h.buf s)
    | some (some u) =>
      let b := if h.buf = noBuf then pickBuf s (cIdx (cordOfBytes (h.frag0.getD []))) else some h.buf
      some (b, withSome b s (fun b t => takeBuf b u t))

/-- Deliver every unit from the next expected one on that is held whole and has a place; the count tells how many there were. -/
def deliverRun (k f : Nat) : Nat → State → State × Nat
  | 0, s => (s, 0)
  | n + 1, s =>
    let x := flowAt s k f
    match x.heldUnits.find? (fun h => h.seq == x.rxAck && heldWhole h) with
    | none => (s, 0)
    | some h => match placeUnit k h s with
      | none => (s, 0)
      | some (b, t) =>
        let s1 := setFlow k f (fun y => { y with rxAck := hallNext y.rxAck, heldUnits := y.heldUnits.filter (fun z => z.seq != h.seq),
                                                 ackOwed := true }) t
        let r := deliverRun k f n (deliverUnit k f h b (flowCtr k f 1 s1))
        (r.1, r.2 + 1)

/-- A held unit with one more of its frames; `none` where it has that frame already. -/
def addFrame (h : HallHeld) (frag : Nat) (body : List Byte) : Option HallHeld :=
  if h.type ≠ 0 then (if h.whole.isSome then none else some { h with whole := some body })
  else if frag = 0 then (if h.frag0.isSome then none else some { h with frag0 := some body })
  else if h.frag1.isSome then none else some { h with frag1 := some body }

/-- Units above a gap that take a port's reorder buffers. -/
def reorderHeld (s : State) (k : Nat) : Nat :=
  (linkAt s k).flows.foldl (fun n p => n + (p.2.heldUnits.filter (fun h => h.seq != p.2.rxAck)).length) 0

/-- The buffer into which a unit's first frame is written: in order, one for the use of `destUse`; above a gap, one of the port's reorder quota;
a DRAIN or MGMT unit in order needs none (R241). Its place is that of the cord's index once the header is there (R188); the index of a cord whose
second fragment comes first is not known, and 0 stands for it. DESIGN CHOICE, log 90. -/
def unitBuf (s : State) (k d : Nat) (h : HallHeld) : Option (Option (Nat × BufUse)) :=
  let pick := fun (u : BufUse) => (pickBuf s ((h.frag0.map (fun b => cIdx (cordOfBytes b))).getD 0)).map (fun b => some (b, u))
  if d = 0 then
    if h.type ≠ 0 then some none
    else match destUse s k h with
      | none => none
      | some none => some none
      | some (some u) => pick u
  else if hallQuota s k ≤ reorderHeld s k then none
  else pick .hall

/-- A fragment of a cord has come: progress for its node, once the first fragment tells what it is (R403). -/
def heardFrame (k f vc : Nat) (h : HallHeld) (s : State) : State :=
  if h.type = 0 then withSome h.frag0 s (fun b t => heard (.link (linkOf k) f) vc (cordOfBytes b) t) else s

/-- A frame of a unit (R238, R240, R241). -/
def takeUnit (k f type vc frag : Nat) (seq : BitVec 32) (body : List Byte) (s : State) : State :=
  let x := flowAt s k f
  match hallAhead seq x.rxAck with
  | none => pushAck k f (flowCtr k f 3 s)
  | some d =>
    if 128 ≤ d then flowCtr k f 4 s
    else
      let old := x.heldUnits.find? (fun h => h.seq == seq)
      let fresh : HallHeld := { seq := seq, vc := vc, type := type, frag0 := none, frag1 := none, whole := none, void := false, buf := noBuf }
      match addFrame (old.getD fresh) frag body with
      | none =>
        let t := flowCtr k f 3 (if (old.map heldWhole).getD false then pushAck k f s else s)
        if d = 0 then (deliverRun k f 128 t).1 else t
      | some h0 =>
        match (if old.isNone then unitBuf s k d h0 else some none) with
        | none => s
        | some b =>
          let h := { h0 with buf := b.elim h0.buf Prod.fst }
          let s0 := heardFrame k f vc h (withSome b s (fun p t => takeBuf p.1 p.2 t))
          let others := x.heldUnits.filter (fun y => y.seq != seq)
          let put := fun (l : List HallHeld) => setFlow k f (fun y => { y with heldUnits := l }) s0
          if !heldWhole h then put (others ++ [h])
          else if type = 0 && !h.void && !crcOk (cordOfBytes (h.frag0.getD [] ++ h.frag1.getD [])) then
            giveBuf h.buf (logEv 0x0609 (unitLink k) f seq.toNat (flowCtr k f 5 (put others)))
          else if d ≠ 0 then pushAck k f (put (others ++ [h]))
          else
            let r := deliverRun k f 128 (put (others ++ [h]))
            if 1 < r.2 then pushAck k f r.1 else r.1

/-- What a frame carries, by FRAME_TYPE; a reserved version or type is a protocol error. -/
def takeFrameBody (k f : Nat) (fr : HallFrame) (s : State) : State :=
  let body := fr.body.take (fieldOf fr.h0 32 16)
  let seq := BitVec.ofNat 32 (fieldOf fr.h0 0 32)
  let type := fieldOf fr.h0 52 4
  match type with
  | 1 => s
  | 4 => takeMsgs k f false [msgOfBytes body] s
  | _ => if type ≤ 3 ∧ seq ≠ 0 then takeUnit k f type (fieldOf fr.h0 49 3) (fieldOf fr.h0 48 1) seq body s else linkError k 0 0 1 s

/-- A frame arrives at an Ethernet port: the filters of R243, the flow's establishment (R326), its ACK fields, then what it carries. A frame
that fails FCS is dropped by the MAC and counted with the link's CRC errors (R251). -/
def takeFrame (k : Nat) (fr : HallFrame) (s : State) : State :=
  if !ethLive s k then s
  else match effPort s k with
    | none => s
    | some c =>
      if !fr.fcsOk then linkCtr k 0xF0 1 s
      else if fr.pause then strayCtr k 10 s
      else if fr.etherType ≠ c.etherType then dropFrame k 6 fr.h4 s
      else if fr.dstMac ≠ c.srcMac then dropFrame k 7 fr.h4 s
      else match flowNamed s k fr.h4 with
        | none => strayCtr k 8 s
        | some f =>
          if fr.body.length ≠ max (fieldOf fr.h0 32 16) (minBody fr.tagged) then flowCtr k f 9 s
          else if (flowAt s k f).state = 3 then flowCtr k f 8 s
          else if fieldOf fr.h0 56 8 ≠ 1 then linkError k 0 0 1 s
          else
            let s1 := setFlow k f (fun x => if x.state = 1 ∨ x.state = 0 then { x with state := 2 } else x) s
            let sack := fr.h2.toNat + fr.h3.toNat * 2 ^ 64
            takeFrameBody k f fr (takeHallAck k f (BitVec.ofNat 32 (fieldOf fr.h1 32 32)) sack s1)

/-! ### Modules that go down (R233) -/

/-- A module goes down while the instance runs: counted, logged, unclean, and the module FAILED. -/
def moduleDown (k : Nat) (s : State) : State :=
  linkFails k 6 (raiseUnclean uModuleDown (logEv 0x060C (unitLink k) 0 0 (linkCtr k 0xD0 1 s)))

end Sys2Proof.Machine
end

