-- ==== Sys2Proof/Machine/ImageParse.lean ====
section
/-! DEFINITION. ImageParse.lean: the kindling image byte for byte (R308 to R321, R159 to R172), read into `Image`. -/

namespace Sys2Proof.Machine

/-! ### Header and directory (R308, R309) -/

/-- MAGIC. -/
def imgMagic (b : List Byte) : Nat := fieldOf (wordAt b 0) 32 32
/-- FORMAT_VERSION. -/
def imgFormat (b : List Byte) : Nat := fieldOf (wordAt b 0) 16 16
/-- MICROCODE_VERSION. -/
def imgMicro (b : List Byte) : Nat := fieldOf (wordAt b 0) 0 16
/-- IMAGE_BYTES. -/
def imgBytes (b : List Byte) : Nat := fieldOf (wordAt b 8) 32 32
/-- SECTION_COUNT. -/
def imgSections (b : List Byte) : Nat := fieldOf (wordAt b 8) 24 8
/-- HEARTH_ONLY. -/
def imgHearth (b : List Byte) : Bool := bitOf (wordAt b 8) 23
/-- POOL. -/
def imgPool (b : List Byte) : Bool := bitOf (wordAt b 8) 22
/-- INSTANCE. -/
def imgInstance (b : List Byte) : Nat := fieldOf (wordAt b 16) 40 24
/-- SHARED_CRC of the header. -/
def imgShared (b : List Byte) : Nat := fieldOf (wordAt b 24) 32 32
/-- BUILD_TAG. -/
def imgTag (b : List Byte) : Nat := fieldOf (wordAt b 24) 0 32

/-- Word A of directory entry k (1 to 14). -/
def dirA (b : List Byte) (k : Nat) : Word := wordAt b (16 + 16 * k)
/-- Word B of directory entry k. -/
def dirB (b : List Byte) (k : Nat) : Word := wordAt b (24 + 16 * k)
/-- OFFSET of section k. -/
def secOff (b : List Byte) (k : Nat) : Nat := fieldOf (dirA b k) 32 32
/-- LENGTH of section k. -/
def secLen (b : List Byte) (k : Nat) : Nat := fieldOf (dirA b k) 0 32
/-- SECTION_CRC of section k. -/
def secCrc (b : List Byte) (k : Nat) : Nat := fieldOf (dirB b k) 32 32
/-- The bytes of section k. -/
def secBytes (b : List Byte) (k : Nat) : List Byte := slice b (secOff b k) (secLen b k)

/-! ### Groups and placements (R311 to R314) -/

/-- OFFSET of group g's record. -/
def grpOff (s : List Byte) (g : Nat) : Nat := fieldOf (wordAt s (16 * g)) 32 32
/-- LENGTH of group g's record. -/
def grpLen (s : List Byte) (g : Nat) : Nat := fieldOf (wordAt s (16 * g)) 0 32
/-- VALID of group g. -/
def grpValid (s : List Byte) (g : Nat) : Bool := bitOf (wordAt s (16 * g + 8)) 63
/-- N of group g. -/
def grpN (s : List Byte) (g : Nat) : Nat := fieldOf (wordAt s (grpOff s g)) 32 16 + 1
/-- Member word i of group g, 32 bits. -/
def grpMember (s : List Byte) (g i : Nat) : Nat := ofLe (slice s (grpOff s g + 128 + 4 * i) 4)

/-- A group record with its defaults applied (R312). -/
def parseGroup (s : List Byte) (g : Nat) : GroupDef :=
  let o := grpOff s g
  let w := fun i => wordAt s (o + 8 * i)
  let sf := fieldOf (w 1) 48 8
  let bd := fieldOf (w 1) 0 32
  { num := g, topLevel := fieldOf (w 0) 52 4,
    members := (List.range (grpN s g)).map (fun i => (grpMember s g i % 65536, grpMember s g i / 65536 % 1024)),
    nonfiniteHalt := decide (fieldOf (w 1) 62 2 = 1), exhaustHalt := decide (fieldOf (w 1) 60 2 = 1),
    skewFactor := if sf = 0 then 4 else sf, boundMs := if bd = 0 then 10000 else bd,
    tileSelect := BitVec.ofNat 576 (ofLe (slice s (o + 16) 72)),
    standby := [fieldOf (w 11) 40 24, fieldOf (w 11) 16 24, fieldOf (w 12) 40 24, fieldOf (w 12) 16 24].filter
      (fun x => x != 0xFFFFFF) }

/-- The valid groups, ascending. -/
def parseGroups (s : List Byte) : List GroupDef :=
  ((List.range 256).filter (grpValid s)).map (parseGroup s)

/-- RECORD_COUNT. -/
def placeCount (s : List Byte) : Nat := fieldOf (wordAt s 0) 32 32
/-- MAP_COUNT. -/
def mapCount (s : List Byte) : Nat := fieldOf (wordAt s 0) 0 32

/-- Placement record r (R313). -/
def parsePlace (s : List Byte) (r : Nat) : PlaceRec :=
  let o := 64 + 40 * r
  let w := fun i => wordAt s (o + 8 * i)
  { group := fieldOf (w 0) 56 8, level := fieldOf (w 0) 52 4, coord := fieldOf (w 0) 32 16,
    entries := ((List.range 8).map (fun i => fieldOf (w (1 + i / 2)) (if i % 2 = 0 then 40 else 16) 24)).take
      (fieldOf (w 0) 48 4) }

/-- All placement records. -/
def parsePlaces (s : List Byte) : List PlaceRec := (List.range (placeCount s)).map (parsePlace s)

/-- System-map entry i: logical die index and instance (R314). -/
def parseMapEntry (s : List Byte) (i : Nat) : Nat × Nat :=
  let w := wordAt s (64 + 40 * placeCount s + 8 * i)
  (fieldOf w 48 16, fieldOf w 24 24)

/-- The system map. -/
def parseMap (s : List Byte) : List (Nat × Nat) := (List.range (mapCount s)).map (parseMapEntry s)

/-! ### Ports and modules (R315) -/

/-- Hall peer entry i of a port record that names offset `o`. -/
def parsePeer (s : List Byte) (o i : Nat) : HallPeer :=
  { inst := fieldOf (wordAt s (o + 16 * i)) 40 24, port := fieldOf (wordAt s (o + 16 * i)) 32 8,
    mac := BitVec.ofNat 48 (fieldOf (wordAt s (o + 16 * i + 8)) 16 48) }

/-- Port record p. -/
def parsePort (s : List Byte) (p : Nat) : PortCfg :=
  let q := fun i => wordAt s (64 * p + 8 * i)
  let et := fieldOf (q 1) 16 16
  { mode := fieldOf (q 0) 60 4, level := fieldOf (q 0) 57 3, rate := fieldOf (q 0) 55 2, width := fieldOf (q 0) 53 2,
    fallback := bitOf (q 0) 52, spare := bitOf (q 0) 51, timeEn := bitOf (q 0) 50, tagEn := bitOf (q 0) 49,
    spareFor := BitVec.ofNat 16 (fieldOf (q 0) 32 16), peerInst := fieldOf (q 0) 8 24, peerPort := fieldOf (q 0) 0 8,
    asymPs := (BitVec.ofNat 32 (fieldOf (q 1) 32 32)).toInt,
    etherType := BitVec.ofNat 16 (if et = 0 then 0x88B5 else et), vlan := fieldOf (q 1) 4 12,
    srcMac := BitVec.ofNat 48 (fieldOf (q 2) 16 48), pcp := BitVec.ofNat 15 (fieldOf (q 2) 0 15),
    peers := (List.range (fieldOf (q 3) 56 8)).map (parsePeer s (fieldOf (q 3) 0 32)) }

/-- Module record u. -/
def parseModule (s : List Byte) (u : Nat) : ModCfg :=
  let q := fun i => wordAt s (1152 + 64 * u + 8 * i)
  { enabled := bitOf (q 0) 63, ucie2 := bitOf (q 0) 62, timeEn := bitOf (q 0) 61, minRate := fieldOf (q 0) 48 8,
    peerInst := fieldOf (q 0) 8 24, peerMod := fieldOf (q 0) 0 8,
    asymPs := (BitVec.ofNat 32 (fieldOf (q 1) 32 32)).toInt,
    relays := (if bitOf (q 2) 63 then [(fieldOf (q 2) 60 3, fieldOf (q 2) 57 3)] else []) ++
      (if bitOf (q 2) 56 then [(fieldOf (q 2) 53 3, fieldOf (q 2) 50 3)] else []) }

/-! ### Weights, policies, cold-start bounds (R316 to R318) -/

/-- The five 8-bit fields of a weight or depth word; all zero applies the defaults. -/
def fiveOr (dflt : List Nat) (w : Word) : List Nat :=
  let l := [fieldOf w 56 8, fieldOf w 48 8, fieldOf w 40 8, fieldOf w 32 8, fieldOf w 24 8]
  if l.all (· == 0) then dflt else l

/-- A field with a default for 0. -/
def orDefault (d v : Nat) : Nat := if v = 0 then d else v

/-- The policies with defaults applied (R317, R287, R190, R205). -/
def parsePolicies (s : List Byte) : Policies :=
  let q := fun i => wordAt s (8 * i)
  { spareCounts := (List.range 16).map (fun i => fieldOf (q 0) (4 * i) 4),
    arrivalReserve := orDefault 64 (fieldOf (q 1) 48 16), recoveryReserve := orDefault 130 (fieldOf (q 1) 32 16),
    ceWarn := orDefault 256 (fieldOf (q 2) 32 32), ceRetire := orDefault 4096 (fieldOf (q 2) 0 32),
    exchLockedUs := orDefault 100 (fieldOf (q 3) 32 32), exchAcqUs := orDefault 10 (fieldOf (q 3) 0 32),
    delayWinL13Ps := orDefault 2000 (fieldOf (q 4) 32 32), delayWinL4Ps := orDefault 5000 (fieldOf (q 4) 0 32),
    timeLossLimit := orDefault 20 (fieldOf (q 5) 48 16), holdoverUs := orDefault 20000 (fieldOf (q 5) 16 32),
    launchLeadMin := orDefault 50000 (fieldOf (q 6) 32 32), laneSerLimit := orDefault 100000 (fieldOf (q 7) 32 32),
    hallDeadUs := orDefault 5000 (fieldOf (q 7) 0 32), moduleTrainUs := orDefault 20000 (fieldOf (q 8) 32 32),
    peerWaitMs := orDefault 10000 (fieldOf (q 8) 0 32) }

/-- COLD_SKEW_WARN and COLD_SMOULDER_WARN for L0 to L4 (R318). -/
def parseCold (s : List Byte) : List (Nat × Nat) :=
  (List.zip (List.range 5) [(5000, 50000), (10000, 100000), (20000, 200000), (50000, 500000), (200000, 2000000)]).map
    (fun x => (orDefault x.2.1 (fieldOf (wordAt s (8 * x.1)) 32 32), orDefault x.2.2 (fieldOf (wordAt s (8 * x.1)) 0 32)))

/-! ### Burn plan (R159 to R172) -/

/-- ENTRY_COUNT. -/
def planCount (s : List Byte) : Nat := fieldOf (wordAt s 0) 48 16
/-- LEAF_SET_COUNT. -/
def planLeafSets (s : List Byte) : Nat := fieldOf (wordAt s 0) 32 16

/-- Entry i. -/
def parseEntry (s : List Byte) (i : Nat) : PlanEntry :=
  let o := 64 + 64 * i
  { w0 := wordAt s o, w1 := wordAt s (o + 8), w2 := wordAt s (o + 16), w3 := wordAt s (o + 24),
    w4 := wordAt s (o + 32), w5 := wordAt s (o + 40), w6 := wordAt s (o + 48), w7 := wordAt s (o + 56) }

/-- Offset of the tile map. -/
def tileMapOff (s : List Byte) : Nat := 64 + 64 * planCount s

/-- Leaf set k (R171). -/
def parseLeafSet (s : List Byte) (k : Nat) : LeafSet :=
  let o := tileMapOff s + 640 + 3200 * k
  { triggers := (List.range 128).map (fun i => (wordAt s (o + 16 * i), wordAt s (o + 16 * i + 8))),
    rings := (List.range 16).map (fun i => wordAt s (o + 2048 + 8 * i)),
    landings := (List.range 64).map (fun i => (wordAt s (o + 2176 + 16 * i), wordAt s (o + 2184 + 16 * i))) }

/-! ### Finishing section (R319) -/

/-- DESCRIPTOR_COUNT. -/
def descCount (s : List Byte) : Nat := fieldOf (wordAt s 0) 48 16
/-- TABLE_COUNT. -/
def tableCount (s : List Byte) : Nat := fieldOf (wordAt s 0) 32 16
/-- Descriptor k. -/
def parseDesc (s : List Byte) (k : Nat) : Word × Word := (wordAt s (64 + 16 * k), wordAt s (72 + 16 * k))
/-- Offset of the table directory. -/
def tableDirOff (s : List Byte) : Nat := roundUp (64 + 16 * descCount s) 64
/-- OFFSET of table t. -/
def tableOff (s : List Byte) (t : Nat) : Nat := fieldOf (wordAt s (tableDirOff s + 8 * t)) 32 32
/-- ENTRIES of table t. -/
def tableLen (s : List Byte) (t : Nat) : Nat := fieldOf (wordAt s (tableDirOff s + 8 * t)) 0 32
/-- Table t: 16-bit entries. -/
def parseTable (s : List Byte) (t : Nat) : List Nat :=
  (List.range (tableLen s t)).map (fun j => ofLe (slice s (tableOff s t + 2 * j) 2))

/-- The whole image. -/
def parseImage (b : List Byte) : Image :=
  let s3 := secBytes b 3
  let s4 := secBytes b 4
  let s5 := secBytes b 5
  let s8 := secBytes b 8
  let s9 := secBytes b 9
  let hearth := imgHearth b
  { formatVersion := BitVec.ofNat 16 (imgFormat b), store := secBytes b 1, microcode := BitVec.ofNat 16 (imgMicro b),
    imageBytes := BitVec.ofNat 32 (imgBytes b), sharedCrc := BitVec.ofNat 32 (imgShared b),
    buildTag := BitVec.ofNat 32 (imgTag b), hearthOnly := hearth, pool := imgPool b,
    groups := parseGroups (secBytes b 2), places := parsePlaces s3, sysMap := parseMap s3,
    ports := (List.range 18).map (parsePort s4), modules := (List.range 6).map (parseModule s4),
    weights := fiveOr [8, 8, 6, 3, 1] (wordAt s5 0),
    portDepths := (List.range 18).map (fun p => fiveOr [40, 40, 32, 12, 4] (wordAt s5 (64 + 8 * p))),
    moduleDepths := (List.range 6).map (fun u => fiveOr [20, 20, 16, 6, 2] (wordAt s5 (208 + 8 * u))),
    policies := parsePolicies (secBytes b 6), cold := parseCold (secBytes b 7), planHdr := s8.take 64,
    planW := (List.range 8).map (fun i => wordAt s8 (8 * i)), entries := (List.range (planCount s8)).map (parseEntry s8),
    tileMap := if hearth then [] else (slice s8 (tileMapOff s8) 576).map BitVec.toNat,
    leafSets := if hearth then [] else (List.range (planLeafSets s8)).map (parseLeafSet s8),
    descriptors := (List.range (descCount s9)).map (parseDesc s9),
    tables := (List.range (tableCount s9)).map (parseTable s9) }

end Sys2Proof.Machine
end

