-- ==== Sys2Proof/Machine/ImageCheck.lean ====
section
/-! DEFINITION. ImageCheck.lean: the checks of R322, R323 and R462, in the order of R462. A failure gives FAIL_CODE, FAIL_SECTION
and FAIL_INDEX of Table: Kindling failure codes. -/

namespace Sys2Proof.Machine

/-- A failed check: FAIL_CODE, FAIL_SECTION and FAIL_INDEX, and what else its rule has KX4 log with the refusal (log 65). -/
structure KFail where
  code : Nat
  sec : Nat
  idx : Nat
  detail : Option (Nat × Nat)
  deriving DecidableEq, Repr

/-- A check: none where it passes. -/
def chk (ok : Bool) (f : KFail) : Option KFail := if ok then none else some f

/-- The first failure of a list of checks. -/
def firstFail : List (Option KFail) → Option KFail
  | [] => none
  | some f :: _ => some f
  | none :: l => firstFail l

/-- CONTENT of a section and item. -/
def content (sec idx : Nat) : KFail := ⟨0x0C, sec, idx, none⟩

/-- Bits [h:l] of a word, as a mask. -/
def maskBits (h l : Nat) : Word := putField l (h + 1 - l) (2 ^ (h + 1 - l) - 1)

/-- The reserved fields of an item: word offsets with the masks of bits that must be 0 (R7). -/
def resvd (sec : Nat) (b : List Byte) (l : List (Nat × Word)) : Option KFail :=
  firstFail (l.map (fun p => chk (decide (wordAt b p.1 &&& p.2 = 0)) ⟨0x0B, sec, p.1 / 64, none⟩))

/-- All bits of consecutive words are reserved. -/
def resvWords (off n : Nat) : List (Nat × Word) := (List.range n).map (fun i => (off + 8 * i, BitVec.allOnes 64))

/-- A value is 0 or in a range. -/
def zeroOr (lo hi v : Nat) : Bool := decide (v = 0) || (decide (lo ≤ v) && decide (v ≤ hi))

/-! ### R322 steps 1 to 3: the header -/

/-- Steps 1 to 3, from the header alone, then INSTANCE and configuration. -/
def checkHeader (b : List Byte) (instanceId : Nat) (hearth : Bool) : Option KFail :=
  firstFail [
    chk (decide (imgMagic b = 0x4B583449)) ⟨0x04, 0, 0, none⟩,
    chk (decide (imgFormat b = 3)) ⟨0x04, 0, 0, none⟩,
    chk (decide (imgBytes b % 64 = 0) && decide (4096 ≤ imgBytes b) && decide (imgBytes b ≤ 16777216)) ⟨0x04, 0, 1, none⟩,
    chk (decide (imgSections b = 10)) ⟨0x04, 0, 1, none⟩,
    chk (decide (imgInstance b = instanceId)) ⟨0x05, 0, 0, none⟩,
    chk (imgHearth b == hearth) ⟨0x06, 0, 0, none⟩,
    chk (!(imgHearth b && imgPool b)) ⟨0x06, 0, 0, none⟩]

/-! ### R322 step 4: the directory -/

/-- The length rule of each section in Table: Image sections that the directory can be held to by itself. -/
def secLenOk (b : List Byte) (k : Nat) : Bool :=
  let n := secLen b k
  match k with
  | 1 => decide (64 ≤ n) && decide (n ≤ 196608) && decide (n % 64 = 0)
  | 5 => decide (n = 256)
  | 6 => decide (n = 128)
  | 7 => decide (n = 64)
  | 8 => decide (n ≤ 1078848)
  | 10 => decide (n = 256)
  | _ => true

/-- Where section k must start: 256, or the first multiple of 64 at or after the end of the previous one (R308). -/
def secStart (b : List Byte) (k : Nat) : Nat :=
  if k ≤ 1 then 256 else roundUp (secOff b (k - 1) + secLen b (k - 1)) 64

/-- The directory obeys R308 and R309; FAIL_INDEX is the failing header word. -/
def checkDirectory (b : List Byte) : Option KFail :=
  firstFail (((List.range 10).map (fun i =>
      let k := i + 1
      let wa := 2 + 2 * k
      firstFail [
        chk (decide (secOff b k = secStart b k) && secLenOk b k && decide (secOff b k + secLen b k ≤ imgBytes b) &&
          (k != 10 || decide (secOff b k + secLen b k = imgBytes b))) ⟨0x04, 0, wa, none⟩,
        chk (decide (fieldOf (dirB b k) 24 8 = k) && decide (fieldOf (dirB b k) 0 24 = 0) &&
          (k != 10 || decide (secCrc b k = 0))) ⟨0x04, 0, wa + 1, none⟩])) ++
    ((List.range 4).map (fun i =>
      let k := i + 11
      let wa := 2 + 2 * k
      firstFail [chk (decide (dirA b k = 0)) ⟨0x04, 0, wa, none⟩, chk (decide (dirB b k = 0)) ⟨0x04, 0, wa + 1, none⟩])))

/-! ### R322 steps 5 and 6 -/

/-- Step 5: SHA-384 of QX ‖ QY equals the anchor; step 6: the signature verifies. -/
def checkAuth (b anchor : List Byte) : Option KFail :=
  let s := secBytes b 10
  let n := fun o => ofBe (slice s o 48)
  firstFail [
    chk (decide (sha384 (slice s 8 96) = anchor)) ⟨0x07, 10, 0, none⟩,
    chk (ecdsaVerify (n 8) (n 56) (n 104) (n 152) (sha384 (b.take (imgBytes b - 256)))) ⟨0x08, 10, 0, none⟩]

/-- The rest of the signature section, which no step before 6 may use (R320, R323). -/
def checkSignature (s : List Byte) : Option KFail :=
  firstFail [
    chk ((slice s 1 7).all (· == 0)) ⟨0x0B, 10, 0, none⟩,
    chk ((slice s 200 56).all (· == 0)) ⟨0x0B, 10, 3, none⟩,
    chk (decide ((s[0]?).getD 0 = 1)) (content 10 0)]

/-! ### R462 step 2 and 3: section CRCs, microcode -/

/-- The first section 1 to 9 whose SECTION_CRC does not match. -/
def badCrcSection (b : List Byte) : Option Nat :=
  ((List.range 9).map (· + 1)).find? (fun k => (crc32c (secBytes b k)).toNat != secCrc b k)

/-- R310. -/
def checkMicrocode (b : List Byte) : Option KFail :=
  chk (decide (imgMicro b ≠ 0) && decide (wordAt (secBytes b 1) 0 = BitVec.ofNat 64 (imgMicro b))) ⟨0x0A, 1, 0, none⟩

/-! ### R462 step 4: sections 2 to 9, item by item -/

/-- The padding word mask of a group record's last member words. -/
def memberPad (s : List Byte) (g : Nat) : Bool :=
  let o := grpOff s g + 128 + 4 * grpN s g
  (slice s o (grpOff s g + grpLen s g - o)).all (· == 0)

/-- Limits and order of a group (R28, R30). -/
def groupOk (g : GroupDef) : Bool :=
  let ds := memberDies g
  ((List.zip ds ds.tail).all (fun p => decide (p.1 < p.2))) && decide (g.topLevel = topOf ds)

/-- Section 2. -/
def checkGroups (s : List Byte) : Option KFail :=
  let valid := (List.range 256).filter (grpValid s)
  let ends := fun g => (valid.filter (fun h => decide (h < g))).foldl (fun _ h => grpOff s h + grpLen s h) 4096
  firstFail ([chk (decide (4096 ≤ s.length)) (content 2 0)] ++ ((List.range 256).map (fun g => firstFail [
      resvd 2 s [(16 * g + 8, maskBits 62 0)],
      chk (grpValid s g || decide (wordAt s (16 * g) = 0)) (content 2 g),
      chk (!grpValid s g || (decide (grpOff s g % 64 = 0) && decide (ends g ≤ grpOff s g) &&
        decide (grpOff s g + grpLen s g ≤ s.length) && decide (128 ≤ grpLen s g) &&
        decide (grpLen s g = 128 + 64 * ceilDiv (4 * grpN s g) 64))) (content 2 g)])) ++
    (valid.map (fun g =>
      let o := grpOff s g
      let d := parseGroup s g
      let raw := [fieldOf (wordAt s (o + 88)) 40 24, fieldOf (wordAt s (o + 88)) 16 24,
        fieldOf (wordAt s (o + 96)) 40 24, fieldOf (wordAt s (o + 96)) 16 24]
      firstFail [
        resvd 2 s ([(o, maskBits 51 48 ||| maskBits 31 0), (o + 8, maskBits 59 56 ||| maskBits 47 32),
          (o + 88, maskBits 15 0), (o + 96, maskBits 15 0)] ++ resvWords (o + 104) 3),
        firstFail ((List.range (grpN s g)).map (fun i =>
          chk (decide (grpMember s g i < 2 ^ 26)) ⟨0x0B, 2, (o + 128 + 4 * i) / 64, none⟩)),
        chk (memberPad s g) ⟨0x0B, 2, (o + 128 + 4 * grpN s g) / 64, none⟩,
        chk (decide (fieldOf (wordAt s o) 56 8 = g) && decide (d.topLevel ≤ 4) &&
          decide (fieldOf (wordAt s (o + 8)) 62 2 ≤ 1) && decide (fieldOf (wordAt s (o + 8)) 60 2 ≤ 1) &&
          zeroOr 2 16 (fieldOf (wordAt s (o + 8)) 48 8) && zeroOr 100 600000 (fieldOf (wordAt s (o + 8)) 0 32) &&
          decide (d.tileSelect ≠ 0) &&
          decide (raw = d.standby ++ List.replicate (4 - d.standby.length) 0xFFFFFF) &&
          d.members.all (fun m => decide (1 ≤ m.2) && decide (m.2 ≤ 576)) && groupOk d) (content 2 g)])))

/-- Section 3. -/
def checkPlaces (s : List Byte) : Option KFail :=
  let n := placeCount s
  let key := fun r => let p := parsePlace s r; (p.group * 16 + p.level) * 65536 + p.coord
  firstFail ([
      resvd 3 s (resvWords 8 7),
      chk (decide (s.length = 64 + 40 * n + 8 * mapCount s)) (content 3 0)] ++
    ((List.range n).map (fun r =>
      let o := 64 + 40 * r
      let p := parsePlace s r
      let cnt := fieldOf (wordAt s o) 48 4
      firstFail [
        resvd 3 s ([(o, maskBits 31 0)] ++ (List.range 4).map (fun i => (o + 8 + 8 * i, maskBits 15 0))),
        chk (decide (1 ≤ p.level) && decide (p.level ≤ 4) && decide (1 ≤ cnt) && decide (cnt ≤ 8) &&
          p.entries.all (· != 0xFFFFFF) &&
          ((List.range 8).all (fun i => decide (i < cnt) ||
            decide (fieldOf (wordAt s (o + 8 + 8 * (i / 2))) (if i % 2 = 0 then 40 else 16) 24 = 0xFFFFFF))) &&
          decide (coordAt p.level p.coord = p.coord) && (r == 0 || decide (key (r - 1) < key r))) (content 3 p.group)])) ++
    ((List.range (mapCount s)).map (fun i =>
      let o := 64 + 40 * n + 8 * i
      firstFail [
        resvd 3 s [(o, maskBits 23 0)],
        chk ((i == 0 || decide ((parseMapEntry s (i - 1)).1 < (parseMapEntry s i).1)) &&
          decide ((parseMapEntry s i).2 ≠ 0xFFFFFF) &&
          (List.range i).all (fun j => decide ((parseMapEntry s j).2 ≠ (parseMapEntry s i).2))) (content 3 0)])))

/-- A signed ASYM in ±100,000 ps (R287). -/
def asymOk (a : Int) : Bool := decide (-100000 ≤ a) && decide (a ≤ 100000)

/-- A port record obeys Table: Port and module settings (R213). -/
def portOk (c : PortCfg) (p hallCount hallOff len : Nat) : Bool :=
  decide (c.mode ≤ 3) && asymOk c.asymPs && decide (c.rate ≤ 2) && decide (c.width ≤ 2) &&
  (!c.fallback || decide (c.mode = 1) || decide (c.mode = 2)) &&
  (if c.mode = 0 then decide (c.level = 0) && decide (hallCount = 0)
   else
    (if c.mode = 3 then
      decide (c.level = 4) && decide (c.width = 2) && decide (c.peerInst = 0xFFFFFF) &&
      decide (c.peerPort = 0xFF) && !c.srcMac.getLsbD 40 && decide (1 ≤ hallCount) && decide (hallCount ≤ 64) &&
      decide (hallOff % 16 = 0) && decide (1536 ≤ hallOff) && decide (hallOff + 16 * hallCount ≤ len)
     else
      (decide (c.level = 2) || decide (c.level = 3)) && decide (c.peerInst ≠ 0xFFFFFF) &&
      decide (c.peerPort ≤ 17) && decide (hallCount = 0))) &&
  (if c.spare then decide (16 ≤ p) else decide (c.spareFor = 0))

/-- A module record obeys Table: Port and module settings; one that relays has TIME_EN 0 (R280, R315). -/
def moduleOk (c : ModCfg) : Bool :=
  asymOk c.asymPs && (c.relays.isEmpty || !c.timeEn) && (!c.enabled ||
    (decide (4 ≤ c.minRate) && decide (c.minRate ≤ (if c.ucie2 then 32 else 16)) && decide (c.peerMod ≤ 5) &&
      decide (c.peerInst ≠ 0xFFFFFF)))

/-- Among this instance's Ethernet ports, port `p` has the ETHERTYPE of the ports before it and a SRC_MAC that none of them has (R213). -/
def ethAgrees (s : List Byte) (p : Nat) : Bool :=
  let c := parsePort s p
  decide (c.mode ≠ 3) || (((List.range p).map (parsePort s)).filter (fun d => decide (d.mode = 3))).all (fun d =>
    d.etherType == c.etherType && d.srcMac != c.srcMac)

/-- Section 4. -/
def checkPorts (s : List Byte) : Option KFail :=
  firstFail ([chk (decide (1536 ≤ s.length) && decide (s.length % 16 = 0)) (content 4 0)] ++
    ((List.range 18).map (fun p =>
      let o := 64 * p
      firstFail [
        resvd 4 s ([(o, maskBits 48 48), (o + 8, maskBits 3 0), (o + 16, maskBits 15 15), (o + 24, maskBits 55 32)] ++
          resvWords (o + 32) 4),
        chk (portOk (parsePort s p) p (fieldOf (wordAt s (o + 24)) 56 8) (fieldOf (wordAt s (o + 24)) 0 32) s.length && ethAgrees s p)
          (content 4 p)])) ++
    ((List.range 6).map (fun u =>
      let o := 1152 + 64 * u
      firstFail [
        resvd 4 s ([(o, maskBits 60 56 ||| maskBits 47 32), (o + 8, maskBits 31 0), (o + 16, maskBits 49 0)] ++
          resvWords (o + 24) 5),
        chk (moduleOk (parseModule s u)) (content 4 (0x20 + u))])) ++
    ((List.range ((s.length - 1536) / 16)).map (fun i =>
      let o := 1536 + 16 * i
      let owner := ((List.range 18).find? (fun p =>
        let q := wordAt s (64 * p + 24)
        decide (fieldOf q 0 32 ≤ o) && decide (o < fieldOf q 0 32 + 16 * fieldOf q 56 8))).getD 0
      firstFail [
        resvd 4 s [(o, maskBits 31 0), (o + 8, maskBits 15 0)],
        chk (decide (fieldOf (wordAt s o) 40 24 ≠ 0xFFFFFF) && decide (fieldOf (wordAt s o) 32 8 ≤ 17))
          (content 4 owner)])))

/-- A weight word obeys R253, or is all zero. -/
def weightsOk (w : Word) : Bool :=
  let l := [fieldOf w 56 8, fieldOf w 48 8, fieldOf w 40 8, fieldOf w 32 8, fieldOf w 24 8]
  l.all (· == 0) || (l.all (fun x => decide (1 ≤ x) && decide (x ≤ 32)) && decide (l.foldl (· + ·) 0 ≤ 64))

/-- A depth word obeys Table: Receive buffer depths, or is all zero; `total` in units of 8 flits. -/
def depthsOk (total : Nat) (w : Word) : Bool :=
  let l := [fieldOf w 56 8, fieldOf w 48 8, fieldOf w 40 8, fieldOf w 32 8, fieldOf w 24 8]
  l.all (· == 0) || ((List.zip l [4, 4, 4, 2, 1]).all (fun x => decide (x.2 ≤ x.1)) &&
    decide (l.foldl (· + ·) 0 ≤ total))

/-- Section 5. -/
def checkWeights (s : List Byte) : Option KFail :=
  firstFail ([resvd 5 s ([(0, maskBits 23 0)] ++ resvWords 8 7), chk (weightsOk (wordAt s 0)) (content 5 0)] ++
    ((List.range 24).map (fun k =>
      let o := 64 + 8 * k
      firstFail [
        resvd 5 s [(o, maskBits 23 0)],
        chk (depthsOk (if k < 18 then 128 else 64) (wordAt s o)) (content 5 (if k < 18 then k else 0x20 + (k - 18)))])))

/-- Section 6 (R317, R287, R190). -/
def checkPolicies (s : List Byte) : Option KFail :=
  let q := fun i => wordAt s (8 * i)
  firstFail [
    resvd 6 s ([(8, maskBits 31 0), (40, maskBits 15 0), (48, maskBits 31 0)] ++ resvWords 72 7),
    chk ((List.range 16).all (fun i => decide (fieldOf (q 0) (4 * i) 4 ≤ 8)) &&
      zeroOr 16 512 (fieldOf (q 1) 48 16) && zeroOr 65 512 (fieldOf (q 1) 32 16) &&
      zeroOr 10 10000 (fieldOf (q 3) 32 32) && zeroOr 2 100 (fieldOf (q 3) 0 32) &&
      zeroOr 500 20000 (fieldOf (q 4) 32 32) && zeroOr 1000 1000000 (fieldOf (q 4) 0 32) &&
      zeroOr 2 1000 (fieldOf (q 5) 48 16) && zeroOr 1000 1000000 (fieldOf (q 5) 16 32) &&
      zeroOr 5000 100000000 (fieldOf (q 6) 32 32) && zeroOr 1 100000000 (fieldOf (q 7) 32 32) &&
      zeroOr 100 1000000 (fieldOf (q 7) 0 32) && zeroOr 1000 200000 (fieldOf (q 8) 32 32) &&
      zeroOr 1000 600000 (fieldOf (q 8) 0 32)) (content 6 0)]

/-- Section 7. -/
def checkCold (s : List Byte) : Option KFail := resvd 7 s (resvWords 40 3)

/-- Reserved bits of a plan entry by type and kind (R163, R164, R168, R170). -/
def entryResv (e : PlanEntry) (o : Nat) : List (Nat × Word) :=
  if eType e = 0 then
    let a :=
      match eKind e with
      | 1 => maskBits 47 0
      | 2 => maskBits 47 0
      | 3 => maskBits 37 0
      | 4 => maskBits 41 0
      | 7 => maskBits 31 0
      | 8 => maskBits 47 0
      | _ => maskBits 63 0
    [(o, maskBits 61 60 ||| maskBits 34 32), (o + 8, maskBits 15 0), (o + 16, a), (o + 24, maskBits 15 0),
      (o + 32, maskBits 47 0), (o + 40, maskBits 63 0), (o + 48, maskBits 63 0), (o + 56, maskBits 31 0)]
  else if eType e = 1 then
    [(o, maskBits 61 60 ||| maskBits 47 16), (o + 16, maskBits 15 0), (o + 24, maskBits 39 0), (o + 32, maskBits 63 0),
      (o + 40, maskBits 63 0), (o + 48, maskBits 63 0), (o + 56, maskBits 31 0)]
  else if eType e = 2 then
    [(o, maskBits 61 60 ||| maskBits 47 0)] ++ resvWords (o + 8) 6 ++ [(o + 56, maskBits 31 0)]
  else []

/-- The pairing of function and format is admissible (R54); kinds that carry no function hold 0 there (R100, R106, R107). -/
def functionOk (e : PlanEntry) : Bool :=
  if eKind e ≤ 2 then
    (match eFn e with
     | 0 => decide (eFmt e ≤ 10)
     | 3 => decide (eFmt e = 0 ∨ eFmt e = 1 ∨ eFmt e = 2 ∨ eFmt e = 5)
     | 7 => false
     | _ => decide (eFmt e ≤ 5))
  else decide (eFn e = 0)

/-- Field values and encodings of an entry (R162 to R165, R168); FINISH is 0 where there is no finishing stage (R165). -/
def entryOk (e : PlanEntry) (i : Nat) : Bool :=
  decide (eType e ≤ 2) && decide (eIdx e = i) &&
  (if eType e = 0 then
    decide (eKind e ≤ 8) && fmtKnown (eFmt e) && functionOk e && decide (ePhase e < ePeriod e) &&
    decide (1 ≤ eWindow e) && decide (eWindow e ≤ 3072) &&
    (match eKind e with
     | 5 => decide (eLen e = 0) && decide (eFmt e = 15)
     | 6 => decide (eLen e = 32) && decide (eFmt e = 5) && decide (eFn e = 0)
     | 4 => decide (eLen e = 32 * eCap e)
     | _ => decide (1 ≤ eLen e) && decide (eLen e ≤ 32 * eF e * 65536)) &&
    (decide (eKind e ≤ 4) || decide (eFinish e = 0))
   else if eType e = 1 then decide (ePhase e < ePeriod e) && !bitOf e.w1 0
   else true)

/-- A leaf entry names an OPERATION entry of the plan (R185). -/
def namesOp (s : List Byte) (p : Nat) : Bool := decide (p < planCount s) && decide (eType (parseEntry s p) = 0)

/-- Two entries are active together in some step: their phases meet (R167). -/
def meets (e f : PlanEntry) : Bool := decide (ePhase e % Nat.gcd (ePeriod e) (ePeriod f) = ePhase f % Nat.gcd (ePeriod e) (ePeriod f))

/-- A loaded trigger entry fires at least one cord, names an OPERATION entry, and names a ring that no trigger of another format names in a step
of both; a BARRIER reads none (R130, R136, R185). DESIGN CHOICE, UNSAFE (log 97): a ring that is not all zero has the format of every entry
that names it, whatever the step; an all-zero ring word states none. -/
def trigOk (s : List Byte) (ls : LeafSet) (w0 w1 : Word) : Bool :=
  decide (w0 = 0 ∧ w1 = 0) || (decide (trPerFire w1 ≠ 0) && namesOp s (trPlan w0) &&
    (let e := parseEntry s (trPlan w0)
     decide (eKind e = 5) ||
       ((match ls.rings[trRing w0]? with
         | some r => decide (r = 0) || srFmt r == eFmt e
         | none => true) &&
        ls.triggers.all (fun u =>
          let f := parseEntry s (trPlan u.1)
          decide (u = (0, 0)) || !namesOp s (trPlan u.1) || decide (eKind f = 5) || trRing u.1 != trRing w0 || eFmt f == eFmt e || !meets e f))))

/-- A landing entry has its values in range and, where it is valid, names an OPERATION entry that no other names; one of a MIRROR has bank
mode 2 and no permit (R110, R145, R146, R185). -/
def landOk (s : List Byte) (lands : List (Word × Word)) (w0 w1 : Word) : Bool :=
  decide (leBankMode w0 ≠ 3) && decide (leBase w0 % 64 = 0) && decide (leBankOffset w1 % 64 = 0) &&
    (!leValid w0 || (namesOp s (lePlan w0) &&
      decide ((lands.filter (fun u => leValid u.1 && lePlan u.1 == lePlan w0)).length ≤ 1) &&
      (decide (eKind (parseEntry s (lePlan w0)) ≠ 8) || (leBankMode w0 == 2 && !lePermitEn w0))))

/-- Leaf-set items: reserved bits, then values (R130, R136, R145, R171). -/
def leafSetCheck (s : List Byte) (k : Nat) : Option KFail :=
  let o := tileMapOff s + 640 + 3200 * k
  let ls := parseLeafSet s k
  firstFail (((List.range 128).map (fun i =>
      let w0 := wordAt s (o + 16 * i)
      let w1 := wordAt s (o + 16 * i + 8)
      firstFail [
        resvd 8 s [(o + 16 * i + 8, maskBits 9 0)],
        chk (trigOk s ls w0 w1) (content 8 (trPlan w0))])) ++
    ((List.range 16).map (fun i =>
      let w := wordAt s (o + 2048 + 8 * i)
      firstFail [
        resvd 8 s [(o + 2048 + 8 * i, maskBits 59 54 ||| maskBits 44 22)],
        chk (fmtKnown (srFmt w) && decide (srBase w % 64 = 0)) (content 8 0)])) ++
    ((List.range 64).map (fun i =>
      let w0 := wordAt s (o + 2176 + 16 * i)
      let w1 := wordAt s (o + 2184 + 16 * i)
      firstFail [
        resvd 8 s [(o + 2176 + 16 * i, maskBits 35 22), (o + 2184 + 16 * i, maskBits 31 22)],
        chk (landOk s ls.landings w0 w1) (content 8 (lePlan w0))])))

/-- Section 8; a hearth-only image has no tile map and no leaf sets (R161, R21). -/
def checkPlan (s : List Byte) (hearth : Bool) : Option KFail :=
  let n := planCount s
  let h := fun i => wordAt s (8 * i)
  let sets := planLeafSets s
  let full := tileMapOff s + 640 + 3200 * sets
  firstFail ([
      resvd 8 s ([(0, maskBits 23 0), (16, maskBits 56 22)] ++ resvWords 32 4),
      chk (decide (1 ≤ n) && decide (n ≤ 4096) && decide (sets ≤ 255) && decide (fieldOf (h 2) 0 6 = 0) &&
        decide (1 ≤ fieldOf (h 1) 32 32) && decide (1 ≤ fieldOf (h 1) 0 32) &&
        (if hearth then decide (tileMapOff s ≤ s.length) else decide (s.length = full)) &&
        decide ((crc32c (slice s 64 (64 * n))).toNat = fieldOf (h 3) 32 32)) (content 8 0)] ++
    ((List.range n).map (fun i =>
      let o := 64 + 64 * i
      let e := parseEntry s i
      firstFail [
        resvd 8 s (entryResv e o),
        chk (decide ((crc32c (slice s o 56)).toNat = fieldOf e.w7 32 32)) (content 8 i),
        chk (entryOk e i) (content 8 i)])) ++
    (if hearth then []
     else
      [resvd 8 s (resvWords (tileMapOff s + 576) 8),
       chk ((slice s (tileMapOff s) 576).all (fun b => b == 0xFF || decide (b.toNat < sets))) (content 8 0),
       chk (decide ((crc32c (slice s (tileMapOff s) (640 + 3200 * sets))).toNat = fieldOf (h 3) 0 32)) (content 8 0)] ++
      (List.range sets).map (leafSetCheck s)))

/-- Section 9 (R113, R319). -/
def checkFinishing (s : List Byte) : Option KFail :=
  let n := descCount s
  let t := tableCount s
  firstFail ([
      resvd 9 s ([(0, maskBits 31 0)] ++ resvWords 8 7),
      chk (decide (1 ≤ n) && decide (n ≤ 256) && decide (t ≤ 4096) && decide (64 + 16 * n ≤ s.length) &&
        (t == 0 || decide (tableDirOff s + 8 * t ≤ s.length))) (content 9 0)] ++
    ((List.range n).map (fun k =>
      let d := parseDesc s k
      firstFail [
        resvd 9 s [(64 + 16 * k, maskBits 22 16)],
        chk ((k != 0 || decide (d = (0, 0))) && (!fdPermEn d || decide (fdTable d < t))) (content 9 k)])) ++
    ((List.range t).map (fun i =>
      chk (decide (tableOff s i % 64 = 0) && decide (tableDirOff s + 8 * t ≤ tableOff s i) &&
        decide (tableOff s i + 2 * tableLen s i ≤ s.length)) (content 9 0))))

/-! ### R462 step 5: rules that span sections -/

/-- Every node at L1 and above of every group has exactly one record, the root's with one entry, and no other records exist (R313). -/
def placesMatch (img : Image) (g : GroupDef) : Bool :=
  ((List.range 4).all (fun i =>
    let l := i + 1
    decide (g.topLevel < l) || (nodesAt g l).all (fun c => (img.places.filter (fun p =>
      p.group == g.num && p.level == l && p.coord == c)).length == 1))) &&
  (g.topLevel == 0 || (placeOf img.places g.num g.topLevel (rootCoord g)).length == 1)

/-- No record names a node that its group does not have. -/
def placeKnown (img : Image) (p : PlaceRec) : Bool :=
  match groupOf img.groups p.group with
  | some g => decide (p.level ≤ g.topLevel) && (nodesAt g p.level).contains p.coord
  | none => false

/-- R314 over the member lists; an instance whose own image is hearth-only or POOL 1 is in no entry. -/
def mapOk (img : Image) (instanceId : Nat) : Bool :=
  let dies := img.sysMap.map Prod.fst
  img.groups.all (fun g => (memberDies g).all (fun d => dies.contains d)) &&
    dies.all (fun d => img.groups.any (fun g => (memberDies g).contains d)) &&
    decide ((img.sysMap.map Prod.snd).eraseDups.length = img.sysMap.length) &&
    !((img.hearthOnly || img.pool) && (img.sysMap.map Prod.snd).contains instanceId)

/-- A link at level `l` between this instance and a peer carries the group's tree in protocol 2 mode (R55). -/
def crossesP2 (img : Image) (instanceId : Nat) (g : GroupDef) : Bool :=
  img.ports.any (fun c => c.mode == 2 && decide (c.level ≤ g.topLevel) &&
    img.places.any (fun p => p.group == g.num && p.level == c.level &&
      img.places.any (fun q => q.group == g.num && q.level + 1 == c.level && coordAt c.level q.coord == p.coord &&
        ((p.entries.contains instanceId && q.entries.contains c.peerInst) ||
         (p.entries.contains c.peerInst && q.entries.contains instanceId)))))

/-- R55: no MX format, in the data or by the finishing descriptor `d`, and no keyed rounding in a group that crosses a protocol 2 port. -/
def p2Ok (img : Image) (instanceId : Nat) (e : PlanEntry) (d : Word × Word) : Bool :=
  !(img.groups.any (fun g => g.num == eGroup e && crossesP2 img instanceId g)) ||
    (!isMx (eFmt e) && !isMx (outFormat d (eFmt e)) && !eKeyed e)

/-- SCALE is finite and not zero (R116). -/
def scaleOk (d : Word × Word) : Bool :=
  match decodeElem 0 (fdScale d) with
  | .fin _ m _ => decide (m ≠ 0)
  | _ => false

/-- Table: Finishing steps admitted and the conditions stated with each step (R115 to R123). -/
def finishOk (e : PlanEntry) (d : Word × Word) (tables : List (List Nat)) : Bool :=
  let f := eFmt e
  let ml := eMl e
  let g := outFormat d f
  let some' := fdScaleEn d || fdConvertEn d || fdHighEn d || fdClampEn d || fdPermEn d
  let arith := (decide (eKind e ≤ 2) && decide (eFn e ≤ 2)) || eKind e == 3 || eKind e == 4
  let limit := fun c => match decodeElem 0 c with
    | .nan => false
    | .inf _ => fmtHasInf g
    | .fin _ m ex => decide (quantMag g none m ex ≤ fmtMax g) &&
        decide (decodeElem g (limitCode g c) ≠ .nan) &&
        (match decodeElem g (limitCode g c) with
         | .fin _ m' ex' => decide (m * 2 ^ (ex - min ex ex').toNat = m' * 2 ^ (ex' - min ex ex').toNat)
         | _ => false)
  let perm := !fdPermEn d ||
    (let t := (tables[fdTable d]?).getD []
     decide (t.length = 32 * fullRows ml f) &&
      (!isMx g || (List.zip (List.range t.length) t).all (fun p => p.1 / 32 == p.2 / 32)))
  if 5 ≤ eKind e then decide (eFinish e = 0)
  else if !some' then true
  else if f = 15 then false
  else if !arith then !(fdScaleEn d || fdConvertEn d || fdHighEn d || fdClampEn d) && perm
  else
    (!fdScaleEn d || (f != 5 && scaleOk d)) &&
    (!fdConvertEn d || (decide (g ≤ 10) && g != 5 &&
      (!(f == 5) || decide (g ≤ 4)) && decide (rowBytes false g * fullRows ml f ≤ 16384))) &&
    (!fdHighEn d || (f == 0 && !fdConvertEn d && fdOut d == 1)) &&
    (!fdClampEn d || (f != 5 && isFloat g && limit (fdLo d) && limit (fdHi d) &&
      decide (orderKey g (limitCode g (fdLo d)) ≤ orderKey g (limitCode g (fdHi d))))) &&
    perm

/-- ROUND and E4M3_OVF as R165 requires. -/
def roundOk (e : PlanEntry) (d : Word × Word) : Bool :=
  let combining := decide (eKind e ≤ 2) && eFn e == 0 && (isFloat (eFmt e) || isMx (eFmt e))
  let fin := fdScaleEn d || fdConvertEn d
  (!eKeyed e || combining || (decide (eKind e ≤ 4) && fin)) &&
  (!eOvfNan e || (decide (eKind e ≤ 2) && eFn e == 0 && eFmt e == 3) || (fdConvertEn d && fdOut d == 3))

/-- SHARED_CRC over sections 2, 3, 7 and 9 (R321). -/
def sharedCrcOf (b : List Byte) : BitVec 32 :=
  crc32c (secBytes b 2 ++ secBytes b 3 ++ secBytes b 7 ++ secBytes b 9)

/-- The logical die index that an instance holds by the system map. -/
def dieByMap (img : Image) (inst : Nat) : Option Nat := (img.sysMap.find? (fun p => p.2 == inst)).map Prod.fst

/-- The relays of a module (R212, R315): VIA is the peer's die[2:0], so far as the system map tells it, and TO is another die of the package
than this one, with no direct module. -/
def relaysOk (img : Image) (instanceId : Nat) (m : ModCfg) : Bool :=
  !m.enabled || m.relays.all (fun r =>
    decide (r.1 ≠ r.2) &&
    (match dieByMap img m.peerInst with
      | some p => decide (r.2 = p % 8)
      | none => true) &&
    (match dieByMap img instanceId with
      | some d => decide (r.1 ≠ d % 8) && decide (r.2 ≠ d % 8) &&
          img.sysMap.all (fun p => decide (p.1 ≠ d / 8 * 8 + r.2) || p.2 == m.peerInst)
      | none => true) &&
    img.modules.all (fun n => !n.enabled || (match dieByMap img n.peerInst with
      | some p => decide (r.1 ≠ p % 8)
      | none => n.relays.all (fun q => decide (q.2 ≠ r.1)))))

/-- The rules that span sections, in the order of R323 (R462). DESIGN CHOICE, UNSAFE (log 95): a GROUP or SEAL_GROUP that names a group the image
does not hold is refused, in the place of R163 and R160. -/
def checkCross (b : List Byte) (img : Image) (instanceId : Nat) : Option KFail :=
  let desc := fun e => (img.descriptors[eFinish e]?).getD (0, 0)
  let ops := (List.zip (List.range img.entries.length) img.entries).filter (fun p => decide (eType p.2 = 0))
  firstFail (
    (img.groups.map (fun g => chk (placesMatch img g) (content 3 g.num))) ++
    (img.places.map (fun p => chk (placeKnown img p) (content 3 p.group))) ++
    [chk (mapOk img instanceId) (content 3 0)] ++
    ((List.zip (List.range 6) img.modules).map (fun p => chk (relaysOk img instanceId p.2) (content 4 (0x20 + p.1)))) ++
    (img.groups.map (fun g =>
      chk (decide (((img.cold[g.topLevel]?).getD (0, 0)).2 < g.boundMs * 100000)) (content 7 g.num))) ++
    [chk (decide ((sharedCrcOf b).toNat = imgShared b)) (content 0 0)] ++
    [chk (!img.hearthOnly || decide (secLen b 8 = tileMapOff (secBytes b 8))) (content 8 0)] ++
    (ops.map (fun p => chk (p2Ok img instanceId p.2 (desc p.2)) (content 8 p.1))) ++
    (ops.map (fun p => chk (decide (eFinish p.2 < img.descriptors.length)) (content 8 p.1))) ++
    (ops.map (fun p => chk (finishOk p.2 (desc p.2) img.tables)
      { content 8 p.1 with detail := some (p.1 % 4096, eFinish p.2) })) ++
    [chk ((groupOf img.groups (fieldOf ((img.planW[0]?).getD 0) 24 8)).isSome) (content 8 0)] ++
    (ops.map (fun p => chk ((groupOf img.groups (eGroup p.2)).isSome) (content 8 p.1))) ++
    (ops.map (fun p => chk (roundOk p.2 (desc p.2)) (content 8 p.1))))

/-- The reserved fields of the header (R7). -/
def checkHeaderResv (b : List Byte) : Option KFail :=
  chk (fieldOf (wordAt b 8) 0 22 == 0 && fieldOf (wordAt b 16) 0 40 == 0) ⟨0x0B, 0, 0, none⟩

/-- R462 steps 3 to 5 over the whole image. -/
def checkContents (b : List Byte) (instanceId : Nat) : Option KFail :=
  firstFail [checkMicrocode b, checkHeaderResv b, checkGroups (secBytes b 2), checkPlaces (secBytes b 3), checkPorts (secBytes b 4),
    checkWeights (secBytes b 5), checkPolicies (secBytes b 6), checkCold (secBytes b 7),
    checkPlan (secBytes b 8) (imgHearth b), checkFinishing (secBytes b 9), checkSignature (secBytes b 10),
    checkCross b (parseImage b) instanceId]

end Sys2Proof.Machine
end

