-- ==== Sys2Proof/Machine/Links.lean ====
section
/-! DEFINITION. Links.lean: what happens on a link: flits, go-back-N, training and LINK_ID, lane degrade, modules, spares, and the forwarding
of management messages (chapters 08 and 09; R325, R326, R352, R381, R453). -/

namespace Sys2Proof.Machine

/-! ### Transmission (R255 to R257) -/

/-- The next grant of the weighted round robin: from the channel whose turn it is, with the grants it has taken (R255). -/
def nextGrant (ready : Nat → Bool) (w : List Nat) : Nat → Nat → Nat → Option (Nat × Nat)
  | 0, _, _ => none
  | n + 1, turn, taken =>
    if ready turn && decide (taken < (w[turn]?).getD 1) then some (turn, taken + 1)
    else nextGrant ready w n ((turn + 1) % 5) 0

/-- The drain markers at the head of their channels, with these (R212, R250). -/
def headMarks (l : LinkSt) : List (Nat × Msg) :=
  [0, 1, 2, 3].filterMap (fun v => ((chanAt l v).queue.head?.bind (fun q => q.mark)).map (fun m => (v, m)))

/-- Control messages that may go now; a drain marker goes when it is at the head of its channel (R250). -/
def ctrlReady (l : LinkSt) : List Msg := l.ctrlQ ++ (headMarks l).map Prod.snd

/-- A channel has a cord at its head, not a marker. -/
def cordWaits (c : Chan) : Bool := (c.queue.head?.map (fun q => q.mark.isNone)).getD false

/-- Cords in an MX format, which a protocol 2 port never sends (R247), leave the head of its channel unsent. DESIGN CHOICE, log 72. -/
def dropBarred (k v : Nat) (s : State) : State :=
  setChan k v (fun c => { c with queue := c.queue.dropWhile (fun q => q.sent == 0 && barred s k q.cord) }) s

/-- The cord at the head of a channel has begun to go. -/
def partSent (c : Chan) : Bool := (c.queue.head?.map (fun q => decide (0 < q.sent))).getD false

/-- A channel has a flit ready with a credit for it; before LINK_ID only control flits pass. No cord begins to go while a drain marker of its
channel is on its way to the link (R182, R250). -/
def chanReady (s : State) (k v : Nat) : Bool :=
  let l := linkAt s k
  let up := l.state == .up
  if v = 4 then !(ctrlReady l).isEmpty || (up && !l.mgmtQ.isEmpty && decide (0 < (chanAt l 4).credits) && !heldBack s k 4)
  else up && cordWaits (chanAt l v) && decide (0 < (chanAt l v).credits) && !heldBack s k v && (partSent (chanAt l v) || !markComing s k 0 v)

/-- A flit enters the transmit queue. -/
def pushFlit (k : Nat) (f : Flit) (s : State) : State := setLink k (fun l => { l with txq := l.txq ++ [f] }) s

/-- A cord that a REORDER holds back has seen one more later cord go: at the last it goes back to the head of its channel (R425). -/
def countReorder (k v : Nat) (s : State) : State :=
  match (injAt s k).reorder with
  | none => s
  | some w =>
    if w.vc ≠ v then s
    else if w.left ≤ 1 then releaseReorder k s
    else setInj k (fun u => { u with reorder := some { w with left := w.left - 1 } }) s

/-- What the injector of a link does before the grant of the head flit of a channel (R424, R425): the flit to grant, or none where REORDER takes
its cord away or HOLD keeps it. A flit is examined once; a re-send under R44 or R246 never (R423). -/
def injectGrant (k : Nat) (f : Flit) (q : TxCord) (s : State) : Option Flit × State :=
  let u := injAt s k
  if q.again || decide (q.sent < q.seen) then (some f, s)
  else match examineFlit k f s with
    | (some g, t) => (some g, t)
    | (none, t) =>
      if injAction u = 5 then
        (none, injected k (startHold k (setChan k f.vc (fun c => { c with queue := modAt c.queue 0 (fun x => { x with seen := q.sent + 1 }) }) t)))
      else if q.sent = 0 ∧ u.reorder.isNone then
        let w : Wait := { vc := f.vc, flow := q.flow, left := fieldOf u.param 25 7, seq := 0, cord := q.cord }
        (none, injected k (setInj k (fun x => { x with reorder := some w })
          (setChan k f.vc (fun c => { c with queue := c.queue.drop 1 }) t)))
      else (some f, t)

/-- Grant the head flit of a channel from VC0 to VC3 (R222, R255); on a protocol 2 port its cord goes as two halves (R248). -/
def grantData (k v taken : Nat) (s : State) : State :=
  match (chanAt (linkAt s k) v).queue with
  | [] => s
  | q :: tail =>
    let f := wireFlit v (wireCords s k v q.cord) q.sent
    match injectGrant k f q s with
    | (none, t) => t
    | (some g, t) =>
      let s1 := setLink k (fun l => { l with
          turn := v, taken := taken,
          unacked := if f.last && !q.void then l.unacked ++ [{ vc := v, flow := 0, cord := q.cord }] else l.unacked })
        (setChan k v (fun c => { c with credits := c.credits - 1,
                                        queue := if f.last then tail else { q with sent := q.sent + 1 } :: tail }) t)
      let s2 := linkCtr k (0x40 + 0x18 * v) 1 (pushFlit k g s1)
      if q.sent = 0 then countReorder k v s2 else s2

/-- What the injector of a link does before the grant of a VC4 flit, which is examined once: none where HOLD keeps it (R425). -/
def injectVc4 (k : Nat) (f : Flit) (s : State) : Option Flit × State :=
  if (linkAt s k).vc4Seen then (some f, setLink k (fun l => { l with vc4Seen := false }) s)
  else match examineFlit k f s with
    | (some g, t) => (some g, t)
    | (none, t) =>
      if injAction (injAt s k) = 5 then (none, injected k (startHold k (setLink k (fun l => { l with vc4Seen := true }) t)))
      else (some f, t)

/-- VC4's turn: a control flit and a VC4 flit that both wait take it alternately (R256). -/
def grantVc4 (k taken : Nat) (s : State) : State :=
  let l := linkAt s k
  let ready := ctrlReady l
  let data := l.state == .up && !l.mgmtQ.isEmpty && decide (0 < (chanAt l 4).credits) && !heldBack s k 4
  let s0 := setLink k (fun x => { x with turn := 4, taken := taken }) s
  if !ready.isEmpty && !(data && l.vc4Ctrl) then
    let ms := ready.take 3
    let sent := (headMarks l).filter (fun p => ms.contains p.2)
    let p := injectFlit k (ctrlFlit ms) s0
    forEach sent (pushFlit k p.1 (setLink k (fun x => { x with ctrlQ := ms.foldl (fun q m => q.erase m) x.ctrlQ, vc4Ctrl := data }) p.2))
      (fun d t => setChan k d.1 (fun c => { c with queue := c.queue.drop 1 }) t)
  else
    let ms := l.mgmtQ.take 3
    match injectVc4 k (mgmtFlit ms) s0 with
    | (none, t) => t
    | (some g, t) =>
      let s1 := setChan k 4 (fun c => { c with credits := c.credits - 1 }) (setLink k (fun x => { x with mgmtQ := x.mgmtQ.drop 3, vc4Ctrl := false }) t)
      linkCtr k 0xA0 1 (pushFlit k g s1)

/-- FLIT_TRANSMIT on a port in a KX4 mode or a module (R255 to R257): the arbiter grants a flit while the transmit queue has a place and no
replay is in progress. With nothing ready the turn has ended and a NOP flit goes; with the replay buffer full, only that (R227). -/
def transmit (k : Nat) (s : State) : State :=
  let l := linkAt s k
  if !l.resend.isEmpty then s
  else if replayFull s k then sendFlit k nopFlit false s
  else if 64 ≤ l.txq.length then s
  else match nextGrant (chanReady s k) (weights s) 7 l.turn l.taken with
    | none =>
      let s1 := setLink k (fun x => { x with turn := (x.turn + 1) % 5, taken := 0 }) s
      if l.txq.isEmpty then pushFlit k nopFlit s1 else s1
    | some (v, n) => if v = 4 then grantVc4 k n s else grantData k v n s

/-- ACK_SEQ, NAK or credits must be seen soon: with no other flit about to leave, a NOP flit carries them (R227, R228, R256). -/
def nopIfQuiet (k : Nat) (s : State) : State :=
  let l := linkAt s k
  let next := (nextGrant (chanReady s k) (weights s) 7 l.turn l.taken).isSome
  if !flitsPass s k || !l.resend.isEmpty || (!replayFull s k && (!l.txq.isEmpty || next)) then s else sendFlit k nopFlit false s

/-- The channels whose head flit is ready and has no credit: CREDIT_STALL_CYCLES counts (R417). -/
def creditStalls (k : Nat) (s : State) : State :=
  let l := linkAt s k
  forEach ((List.range 5).filter (fun v => l.state == .up && decide ((chanAt l v).credits = 0) && !heldBack s k v &&
      (if v = 4 then !l.mgmtQ.isEmpty else cordWaits (chanAt l v)))) s (fun v => addCycles (linkBase k + 0x50 + 0x18 * v))

/-- FLIT_TRANSMIT (R255, R258). -/
def execFlitTransmit (l : Link) (s : State) : Host.Outcome State Fault Refusal :=
  let k := linkNo l
  done s (if isEth s k then ethTransmit k s
    else if flitsPass s k then transmit k (creditStalls k (forEach [0, 1, 2, 3] s (dropBarred k)))
    else s)

/-! ### Reception (R228, R229, R232, R233) -/

/-- A failed or out-of-order sequenced flit: the first one sets NAK, an event that adds time (R228, R296). -/
def refuseFlit (k : Nat) (s : State) : State :=
  if (linkAt s k).nakOut then s
  else noteTime <| linkCtr k 0xC8 1 (setLink k (fun l => { l with nak := true, nakOut := true }) s)

/-- What every flit that is not discarded tells: ACK_SEQ, credits and NAK (R227 to R229, R254). -/
def takeHeader (k : Nat) (h : Word) (s : State) : State :=
  let s1 := takeCredits k h s
  if isModule k then s1
  else
    let s2 := takeAck k (fieldOf h 33 12) s1
    if bitOf h 32 then startReplay k s2 else s2

/-- A flit at L2 or L3 (R228). Whether one that fails its checks was sequenced is read from its own SEQD bit, corrupt as it may be: the rule does
not say how it is told. DESIGN CHOICE, log 103. -/
def receivePort (k : Nat) (chk : RxCheck) (b : List Byte) (s : State) : State :=
  let s0 := linkCtr k 0xE0 (corrected chk) (linkCtr k 0xE8 (uncorrectable chk) s)
  let h := wordAt b 0
  let crc := flitOk b
  if !fecOk chk || !crc then
    let s1 := if fecOk chk then linkCtr k 0xF0 1 s0 else s0
    if bitOf h 57 then nopIfQuiet k (refuseFlit k s1) else s1
  else if !bitOf h 57 then takeHeader k h s0
  else if fieldOf h 45 12 = ((linkAt s k).ackSeq + 1).toNat then
    let s1 := setLink k (fun l => { l with ackSeq := l.ackSeq + 1, nak := false, nakOut := false, ackDue := l.ackDue + 1 }) s0
    let s2 := takeFlit k h (b.drop 8) (takeHeader k h s1)
    if 32 ≤ (linkAt s2 k).ackDue then nopIfQuiet k s2 else s2
  else nopIfQuiet k (refuseFlit k s0)

/-- A flit on a module: the adapter delivers in order; one that fails FLIT_CRC is discarded with the partial cord of its channel and makes
the step unclean (R232, R233). Each retry that the adapter reports is logged with the code of a link replay, as no
code of the event table names it (R296). DESIGN CHOICE, log 99. -/
def receiveModule (k : Nat) (chk : RxCheck) (b : List Byte) (s0 : State) : State :=
  let s := forEach (List.range chk.corrected.val) s0 (fun _ t => logEv 0x0601 (unitLink k) 1 0 (linkCtr k 0xC8 1 t))
  let h := wordAt b 0
  if !flitOk b then
    raiseUnclean uLinkIntegrity (linkCtr k 0xC0 1 (setChan k (fieldOf h 61 3) (fun c => { c with partialRx := none }) s))
  else takeFlit k h (b.drop 8) (takeHeader k h s)

/-- FLIT_RECEIVE (R228). -/
def execFlitReceive (l : Link) (chk : RxCheck) (flit : List Byte) (s : State) : Host.Outcome State Fault Refusal :=
  let k := linkNo l
  if flit.length ≠ 256 then .fault .malformedOperand
  else done s (if !flitsPass s k then s else if isModule k then receiveModule k chk flit s else receivePort k chk flit s)

/-- A KX4-mode port at L2 or L3 that is UP. -/
def portUp (s : State) (k : Nat) : Bool := decide (k < 18) && !isEth s k && (linkAt s k).state == .up && linkLive s k

/-- NAK_REPEAT (R228): until the expected SEQ arrives, NAK is sent again. -/
def execNakRepeat (p : Fin 18) (s : State) : Host.Outcome State Fault Refusal :=
  done s (if portUp s p.val && (linkAt s p.val).nakOut then
      nopIfQuiet p.val (linkCtr p.val 0xC8 1 (setLink p.val (fun l => { l with nak := true }) s))
    else s)

/-- ACK_VISIBILITY (R227): 100 ns without sending ACK_SEQ, so a NOP flit carries it. -/
def execAckVisibility (p : Fin 18) (s : State) : Host.Outcome State Fault Refusal :=
  done s (if portUp s p.val && decide (0 < (linkAt s p.val).ackDue) then nopIfQuiet p.val s else s)

/-- ACK_TIMEOUT (R229): 4 µs without progress while flits are outstanding. -/
def execAckTimeout (p : Fin 18) (s : State) : Host.Outcome State Fault Refusal :=
  done s (if portUp s p.val then startReplay p.val s else s)

/-! ### Training (R214, R215, R230, R231, R325, R453) -/

/-- The LINK_ID message of a link (R215, R223). -/
def mkLinkId (s : State) (k : Nat) : Msg :=
  let proto := if isP2 s k then 2 else 3
  let role := match portCfg s k with
    | some c => if k < 18 && c.spare then 1 else 0
    | none => 0
  { msgZero with m0 := putField 56 8 1 ||| putField 32 24 (me s) ||| putField 24 8 (if k < 18 then k else 0x80 + (k - 18)) |||
                       putField 16 8 proto ||| putField 8 8 role,
                 m1 := putField 32 32 (fieldOf (planWord s 3) 32 32) }

/-- A link has finished its first training: its sequence state starts, and LINK_ID goes out (R215, R227); a SPARE_TAKE that waits for the
training follows it (R251). -/
def sendLinkId (k : Nat) (s : State) : State :=
  setLink k (fun l => { l with ctrlQ := mkLinkId s k :: l.ctrlQ.filter (fun m => mType m == 6), nextSeq := 0, ackSeq := 4095, replay := [],
                               resend := [], txq := [], nak := false,
                               nakOut := false, ackDue := 0, replays := 0, group := [], groupNo := 0 }) s

/-- A port resumes by go-back-N (R229, R230). -/
def resumePort (k : Nat) (s : State) : State := setLink k (fun l => { l with state := .up, resend := l.replay, replays := 0, group := [] }) s

/-- A training of a port that has not ended well at a lane rate: with RATE_FALLBACK the next lower rate is tried, and after 53.125 Gb/s or
without it the port is FAILED (R214, R215). -/
def tryLower (k : Nat) (s : State) : State :=
  match portCfg s k with
  | some c =>
    let r := ((linkAt s k).tryRate.map (fun x => x.toNat)).getD c.rate
    if c.fallback ∧ c.mode ≠ 3 ∧ 0 < r then setLink k (fun l => { l with tryRate := some (BitVec.ofNat 2 (r - 1)) }) s else linkFails k 1 s
  | none => linkFails k 1 s

/-- A training of a port ends with lanes locked at a rate: the rate tried, or with RATE_FALLBACK a lower one, and every lane of the configured
width, else training at that rate has failed (R214, R215). A rate below the configured one is logged. A re-widen that fails keeps the degraded
width (R231). The end of a re-widen is logged with the code
of its row in the table of R296 (log 99). -/
def trainingEnds (k rate : Nat) (lanes : BitVec 8) (s : State) : State :=
  match portCfg s k with
  | none => s
  | some c =>
    let m := widthMask c.width
    let tried := ((linkAt s k).tryRate.map (fun x => x.toNat)).getD c.rate
    let ok := lanes &&& m == m && (rate == tried || (c.fallback && c.mode != 3 && decide (rate < tried)))
    let locked := fun (t : State) =>
      let t1 := setLink k (fun l => { l with rate := BitVec.ofNat 2 rate, width := BitVec.ofNat 2 c.width, lanesGood := m, laneErr := [], lost := 0,
                                             tryRate := none }) t
      if rate = c.rate then t1 else logEv 0x0606 (unitLink k) rate 0 t1
    match (linkAt s k).rewiden with
    | some (w, g) =>
      let t := resumePort k (setLink k (fun l => { l with rewiden := none })
        (if ok then locked s else setLink k (fun l => { l with width := w, lanesGood := g }) s))
      logEv 0x0603 (unitLink k) (linkAt t k).width.toNat (linkAt t k).lanesGood.toNat t
    | none => if !ok then tryLower k s else if c.mode = 3 then locked s else sendLinkId k (locked s)

/-- TRAIN_DONE: a training, a fast retrain or a width change of a port ends (R229, R230, R453); after the fast retrain of a port that a
re-kindle left unchanged LINK_ID goes out as after any training (R325, R334). -/
def execTrainDone (p : Fin 18) (rate : BitVec 2) (lanes : BitVec 8) (s : State) : Host.Outcome State Fault Refusal :=
  let k := p.val
  let l := linkAt s k
  done s (match l.state with
    | .training => if trained s k then s else trainingEnds k rate.toNat lanes s
    | .retraining =>
      if l.lanesGood = 0 then trainingEnds k rate.toNat lanes (setLink k (fun x => { x with state := .training }) s)
      else if lanes &&& l.lanesGood == l.lanesGood then resumePort k s else escalate k (l.lanesGood &&& ~~~lanes) s
    | .degrading => (match l.degrade with
        | some (w, m) =>
          let s1 := resumePort k (setLink k (fun x => { x with width := w.setWidth 2, lanesGood := m, degrade := none, laneErr := [] }) s)
          degradeTo k (logEv 0x0603 (unitLink k) w.toNat m.toNat (linkCtr k 0xD8 1 s1))
        | none => s)
    | _ => s)

/-- RETRAIN_TIMEOUT: a fast retrain not ended within 1 ms has failed (R229); so has a width change, and the training of a port that keeps
its equalisation across a re-kindle (R334). -/
def execRetrainTimeout (p : Fin 18) (s : State) : Host.Outcome State Fault Refusal :=
  done s (match (linkAt s p.val).state with
    | .retraining => if (linkAt s p.val).lanesGood = 0 then linkFails p.val 1 s else escalate p.val 0 s
    | .degrading => linkFails p.val 2 s
    | _ => s)

/-- TRAINING_TIMEOUT: a link not trained within its bound fails, or a port with RATE_FALLBACK tries a lower rate (R214, R215); one that has
trained and has no LINK_ID within it fails. A re-widen that fails keeps the degraded width (R231). -/
def execTrainingTimeout (l : Link) (s : State) : Host.Outcome State Fault Refusal :=
  let k := linkNo l
  let x := linkAt s k
  done s (if x.state != .training then s
    else match x.rewiden with
      | some (w, g) => resumePort k (setLink k (fun y => { y with width := w, lanesGood := g, rewiden := none }) s)
      | none => if isModule k || trained s k then linkFails k 1 s else tryLower k s)

/-- A link of a block that is awake and whose peer returns trains again: a KX4-mode port by a fast retrain (R352, R353). -/
def retrainDown (k : Nat) (s : State) : State :=
  let configured := if k < 18 then (match portCfg s k with
      | some c => c.mode != 0
      | none => false)
    else ((modCfg s (k - 18)).map (fun c => c.enabled)).getD false
  if (linkAt s k).state == .down && isReady s && !s.power.banked && configured then
    setLink k (fun l => { l with state := if k < 18 && !isEth s k then .retraining else .training,
                                 rateGts := if k < 18 then l.rateGts else 0 }) s
  else s

/-- PEER_SIGNAL_SEEN: the training bound of the link starts (R325). -/
def execPeerSignalSeen (l : Link) (s : State) : Host.Outcome State Fault Refusal :=
  let k := linkNo l
  done s (retrainDown k { s with kindle := { s.kindle with peerSeen := insertNat k s.kindle.peerSeen } })

/-- PEER_WAIT_EXPIRY: a link whose peer shows no signal fails (R325, R353); a hall flow not established goes down (R326). -/
def execPeerWaitExpiry (l : Link) (s : State) : Host.Outcome State Fault Refusal :=
  let k := linkNo l
  let st := (linkAt s k).state
  done s (if isEth s k && st == .up then
      forEach ((linkAt s k).flows.filter (fun p => p.2.state == 1)) s (fun p t => flowFails k p.1 1 t)
    else if (st == .training || st == .retraining) && !s.kindle.peerSeen.contains k && !trained s k then linkFails k 5 s
    else s)

/-- PEER_SIGNAL_LOSS: DOWN in IDLE, in HALTED or while banked, otherwise a link failure (R352, R230, R233). -/
def execPeerSignalLoss (l : Link) (s : State) : Host.Outcome State Fault Refusal :=
  let k := linkNo l
  done s (if !linkUp s k then s
    else if s.step.state == .idle || s.step.state == .halted || isBanked s then setLink k (fun x => { x with state := .down }) s
    else if isModule k then moduleDown k s
    else linkFails k 3 s)

/-- PCS_LINK_UP: an Ethernet port is UP, and its flows start (R326). -/
def execPcsLinkUp (p : Fin 18) (s : State) : Host.Outcome State Fault Refusal :=
  let k := p.val
  done s (if isEth s k && ((linkAt s k).state == .training || (linkAt s k).state == .down) then startFlows k s else s)

/-- The link that a control message came by. -/
def ctrlLink (a : Arrival) : Option Nat :=
  match a.src with
  | .link l _ => some (linkNo l)
  | _ => none

/-- Take a control message of a type from the inbox. -/
def takeCtrl (i type : Nat) (f : Nat → Msg → State → State) (s : State) : State :=
  match s.inbox[i]? with
  | none => s
  | some a =>
    match a.body, ctrlLink a with
    | .ctrl m, some k => if mType m = type then f k m { s with inbox := dropAt s.inbox i } else s
    | _, _ => s

/-- The LINK_ID that a link expects (R215, R245): instance, port number or 0x80 plus module number, protocol and role. -/
def expectedId (s : State) (k : Nat) : Option (Nat × Nat × Nat × Nat) :=
  if k < 18 then (portCfg s k).map (fun c => (c.peerInst, c.peerPort, (if c.mode = 2 then 2 else 3), if c.spare then 1 else 0))
  else (modCfg s (k - 18)).map (fun c => (c.peerInst, 0x80 + c.peerMod, 3, 0))

/-- A LINK_ID that matches makes the link UP, with credits for the peer's receive buffers, which are set as its own (R214, R215, R254);
another leaves it FAILED, and both identities are logged. How event 0x0605 packs the received port or module number, protocol and role in
ARG_B is left open: number × 65,536 + protocol × 256 + role. DESIGN CHOICE, log 73. -/
def takeLinkId (k : Nat) (m : Msg) (s : State) : State :=
  if !trained s k then s
  else
    let got := (fieldOf m.m0 32 24, fieldOf m.m0 24 8, fieldOf m.m0 16 8, fieldOf m.m0 8 8)
    if expectedId s k = some got ∧ fieldOf m.m1 32 32 = fieldOf (planWord s 3) 32 32 then
      setLink k (fun l => { l with state := .up, peerInst := BitVec.ofNat 24 got.1, peerPort := BitVec.ofNat 8 (got.2.1 % 128),
                                   chans := l.chans.mapIdx (fun v c => { c with credits := 8 * (l.depths[v]?).getD 0, rxHeld := 0,
                                                                                partialRx := none }) }) s
    else
      linkFails k 4 (logEv 0x0605 (unitLink k) got.1 (got.2.1 * 65536 + got.2.2.1 * 256 + got.2.2.2) s)

/-- LINK_ID (R215). -/
def execLinkId (i : Nat) (s : State) : Host.Outcome State Fault Refusal := done s (takeCtrl i 1 takeLinkId s)

/-- MODULE_TRAINING_DONE (R232): below MIN_RATE the module has failed; otherwise LINK_ID goes out. -/
def execModuleTrainingDone (u : Fin 6) (version : Bool) (rateGts : BitVec 6) (s : State) : Host.Outcome State Fault Refusal :=
  let k := 18 + u.val
  done s (match modCfg s u.val with
    | none => s
    | some c =>
      if (linkAt s k).state != .training || trained s k then s
      else
        let top := if c.ucie2 then 32 else 16
        if rateGts.toNat < c.minRate ∨ top < rateGts.toNat ∨ (version && !c.ucie2) ∨ rateGts = 0 then linkFails k 1 s
        else sendLinkId k (setLink k (fun l => { l with version := version, rateGts := rateGts }) s))

/-- ADAPTER_LINK_DOWN (R233). -/
def execAdapterLinkDown (u : Fin 6) (s : State) : Host.Outcome State Fault Refusal :=
  let k := 18 + u.val
  done s (if !linkUp s k then s
    else if s.step.state == .idle || s.step.state == .halted || isBanked s then
      linkCtr k 0xD0 1 (setLink k (fun x => { x with state := .down }) s)
    else moduleDown k s)

/-! ### Lanes (R230, R401, R453) -/

/-- The port is in service with this lane. -/
def laneActive (s : State) (k i : Nat) : Bool := (linkAt s k).lanesGood.getLsbD i && !(linkAt s k).lost.getLsbD i && linkUp s k

/-- LOSS_OF_LOCK (R230): on an UP port the lane is given up; during a fast retrain the retrain has failed (R461). -/
def execLossOfLock (lane : Fin 144) (s : State) : Host.Outcome State Fault Refusal :=
  let k := lane.val / 8
  let i := lane.val % 8
  done s (if !laneActive s k i then s
    else match (linkAt s k).state with
      | .retraining => escalate k (laneBit i) s
      | _ => loseLanes k (laneBit i) s)

/-- LANE_SER_EXCEEDED (R230). -/
def execLaneSerExceeded (lane : Fin 144) (s : State) : Host.Outcome State Fault Refusal :=
  done s (if laneActive s (lane.val / 8) (lane.val % 8) then loseLanes (lane.val / 8) (laneBit (lane.val % 8)) s else s)

/-- Ten-bit symbols of a lane in one second, by rate code. -/
def symbolsPerSecond (rate : Nat) : Nat := if rate = 0 then 5312500000 else if rate = 1 then 10625000000 else 21250000000

/-- Symbol errors of a lane in a second that LANE_SER_LIMIT allows (R230). -/
def serLimit (s : State) (k : Nat) : Nat := policy s (fun p => p.laneSerLimit) 100000 * symbolsPerSecond (linkAt s k).rate.toNat / 1000000000

/-- Symbol errors of a lane in the present second, and the second's first tick plus 1 (keys 16 and up); a lane that reaches a tenth of
LANE_SER_LIMIT is warned of once (R401), and one that passes the limit is given up (R230, R453). -/
def symbolError (k i : Nat) (s : State) : State :=
  let l := linkAt s k
  let now := s.time.tick.toNat
  let start := smGet 0 l.laneErr (16 + i)
  let fresh := decide (start = 0) || decide (start + secondTicks ≤ now + 1)
  let n := if fresh then 1 else smGet 0 l.laneErr i + 1
  let s1 := setLink k (fun x => { x with laneErr := smSet 0 (if fresh then smSet 0 x.laneErr (16 + i) (now + 1) else x.laneErr) i n }) s
  let warnAt := ceilDiv (policy s (fun p => p.laneSerLimit) 100000 * symbolsPerSecond l.rate.toNat) 10000000000
  let s2 := if n = max 1 warnAt then setPend 0x20 (logEv 0x080C (unitLink k) n warnAt s1) else s1
  if n = serLimit s k + 1 then loseLanes k (laneBit i) s2 else s2

/-- SER_ERR_PULSE (R453): counted toward the lane's ratio. -/
def execSerErrPulse (lane : Fin 144) (s : State) : Host.Outcome State Fault Refusal :=
  done s (if laneActive s (lane.val / 8) (lane.val % 8) then symbolError (lane.val / 8) (lane.val % 8) s else s)

/-- DEGRADE_REQ (R230): acknowledged in VC4's turn (R256), and with the acknowledgement the width changes; but where both ends ask the
request of the lower instance identifier stands. -/
def takeDegradeReq (k : Nat) (m : Msg) (s : State) : State :=
  let w := BitVec.ofNat 8 (fieldOf m.m0 48 8)
  let g := BitVec.ofNat 8 (fieldOf m.m0 40 8)
  if !portUp s k || ((linkAt s k).degrade.isSome && decide (me s < peerOf s k 0)) then s
  else setLink k (fun l => { l with degrade := some (w, g), ctrlQ := mkDegrade 5 w.toNat g :: l.ctrlQ.filter (fun x => mType x != 4) }) s

/-- DEGRADE_REQ (R230). -/
def execDegradeReq (i : Nat) (s : State) : Host.Outcome State Fault Refusal := done s (takeCtrl i 4 takeDegradeReq s)

/-- DEGRADE_ACK of the width asked for (R230). -/
def takeDegradeAck (k : Nat) (m : Msg) (s : State) : State :=
  match (linkAt s k).degrade with
  | some (w, g) => if portUp s k && w.toNat == fieldOf m.m0 48 8 && g.toNat == fieldOf m.m0 40 8 then widthChange k s else s
  | none => s

/-- DEGRADE_ACK (R230). -/
def execDegradeAck (i : Nat) (s : State) : Host.Outcome State Fault Refusal := done s (takeCtrl i 5 takeDegradeAck s)

/-- A step boundary: a SEALED, SKIP or REPLAY broadcast has ended the last step launched here, and neither half has opened the next one (R206). -/
def atBoundary (s : State) : Bool :=
  (s.step.state == .idle || s.step.state == .armed) && !s.step.openW && !s.step.openE && !s.step.neverLaunched &&
    decide (s.step.lastOutcome.toNat ≤ 2)

/-- A host write to KX_PORT_CTRL: at a step boundary a degraded port retrains fully at its configured width (R231); otherwise the request is
ignored and counted. -/
def writePortCtrl (p : Nat) (v : Word) (s : State) : State :=
  if !bitOf v 63 then s
  else
    let l := linkAt s p
    let narrow := match portCfg s p with
      | some c => decide (l.width.toNat < c.width)
      | none => false
    if narrow && portUp s p && atBoundary s then
      setLink p (fun x => { x with state := .training, rewiden := some (x.width, x.lanesGood), resend := [] }) s
    else countIgnored (linkBase p + 8) s

/-- A write to a register of a domain: a cold access while it is not WARM (R339). -/
def warmWrite (off : Nat) (f : State → State) (s : State) : State := if regWarm s off then f s else countCold off s

/-- REWIDEN_REQ (R231). -/
def execRewidenReq (p : Fin 18) (v : Word) (s : State) : Host.Outcome State Fault Refusal :=
  done s (hostWrite s (warmWrite (linkBase p.val + 8) (writePortCtrl p.val v)))

/-! ### Spares (R244, R245) -/

/-- The port that faced the peer's failed port: the one whose configured peer it is. -/
def facing (s : State) (k q : Nat) : Option Nat :=
  (List.range 18).find? (fun p => match portCfg s p with
    | some c => !c.spare && decide (c.mode = 1 ∨ c.mode = 2) && c.peerInst == peerOf s k 0 && c.peerPort == q
    | none => false)

/-- The port whose position a spare's far end has taken over has failed too, where this end had not seen it yet: what it had not had
acknowledged goes on the spare (R244, R246). It is logged as another failure of a port is. DESIGN CHOICE, log 75. -/
def giveUp (k p : Nat) (s : State) : State :=
  let l := linkAt s p
  if l.state = .failed then s
  else
    let cs := if isEth s k then queuedCords s p else unackedCords s p
    let ds := if isEth s k then [] else unackedDrains l
    let s1 := setLink p (fun x => { quietLink x with state := .failed, failReason := 3 })
      { s with inject := { s.inject with units := smMod Injector.init s.inject.units p (fun u => { u with reorder := none }) } }
    forEach ds (setLink k (fun x => { x with unacked := x.unacked ++ cs }) (logEv 0x0604 (unitLink p) 3 0 s1)) (fun d t => ctrlOn k 0 d.2 t)

/-- SPARE_TAKE (R244): the spare takes the position that faced the failed port and answers, on Ethernet once its answer has left by the flow
that the request came by; while it trains the request waits (R251). DESIGN CHOICE, UNSAFE (log 75): an Ethernet spare takes over its own port
of the number that the request names. -/
def execSpareTake (i : Nat) (s : State) : Host.Outcome State Fault Refusal :=
  done s (match s.inbox[i]? with
    | none => s
    | some a => match a.body, ctrlLink a with
      | .ctrl m, some k =>
        let q := fieldOf m.m0 48 8
        if mType m ≠ 6 ∨ (linkAt s k).state = .retraining ∨ (linkAt s k).state = .degrading ∨ (linkAt s k).state = .training then s
        else
          let s0 := { s with inbox := dropAt s.inbox i }
          if (linkAt s k).role ≠ 1 then s0
          else match (if isEth s k then some q else facing s k q) with
            | none => s0
            | some p =>
              let ack := { msgZero with m0 := putField 56 8 7 ||| putField 48 8 q }
              if isEth s k then ctrlOn k (srcFlow a) ack (setLink k (fun l => { l with answering := some p }) (giveUp k p s0))
              else ctrlOn k 0 ack (takeOver k p (giveUp k p s0))
      | _, _ => s)

/-- SPARE_ACK (R244): the takeover is complete. -/
def execSpareAck (i : Nat) (s : State) : Host.Outcome State Fault Refusal :=
  done s (takeCtrl i 7 (fun k m t => match (linkAt t k).taking with
    | some p => if p = fieldOf m.m0 48 8 then takeOver k p t else t
    | none => t) s)

/-! ### Messages for other instances (R224, R381) -/

/-- HOP_BY_HOP_FORWARD: a message for another instance goes one hop on along the seal group's tree (R381). -/
def execHopByHopForward (i : Nat) (s : State) : Host.Outcome State Fault Refusal :=
  done s (match s.inbox[i]? with
    | some a => (match a.body with
        | .mgmt m =>
          let s0 := { s with inbox := dropAt s.inbox i }
          if mDest m = me s ∨ mDest m = 0xFFFFFF then s
          else if mType m = 7 then passForward (mDest m) m s0
          else route (mDest m) m s0
        | _ => s)
    | none => s)

end Sys2Proof.Machine
end

