-- ==== Sys2Proof/Machine/Snap.lean ====
section
/-! DEFINITION. Snap.lean: what a capture records: the snapshot records and the RL copies of the counters (R421, R436 to R438). -/

namespace Sys2Proof.Machine

/-- PC of a snapshot record; 0xFFFF_FFFF for none. -/
def pcOf (p : Option (Nat × Nat)) : Nat :=
  match p with
  | some q => argPC q.1 q.2
  | none => 0xFFFFFFFF

/-- S0 and S1 of a record (R438). -/
def recHead (s : State) (unit : Nat) : List Word :=
  [bitAt 63 true ||| putField 48 8 unit ||| putField 0 48 (stepNo s),
   putField 48 16 s.step.attempt.toNat ||| putField 44 4 (stepCode s)]

/-- A cord index is in combine at its node: every child's cord is there and the result is not. -/
def combining (s : State) (x : NodeInst) (o : OpenCord) : Bool :=
  match entryAt s x.plan with
  | none => false
  | some e => match entryGroup s e with
    | none => false
    | some g =>
      let kids := cordChildren s e g x.node o.idx
      o.partialOut.isNone && !o.forwarded && !o.sent && eKind e != 5 && decide (2 ≤ kids.length) &&
        kids.all (fun k => o.ops.any (fun q => q.child == k))

/-- The first cord in combine among the nodes and indices that `f` takes. -/
def combineAtUnit (s : State) (f : NodeInst → OpenCord → Bool) : Option (Nat × OpenCord) :=
  s.kiln.nodes.findSome? (fun x => (x.opens.find? (fun o => f x o && combining s x o)).map (fun o => (x.plan, o)))

/-- Segment records. -/
def recSeg (s : State) (i : Nat) : List Word :=
  let here := fun (x : NodeInst) => x.node.stage.val == 0 && x.node.seg.val == i
  let slots := s.kiln.nodes.foldl (fun n x => if here x then n + x.opens.foldl (fun k o => k + o.ops.length) 0 else n) 0
  let c := combineAtUnit s (fun x _ => here x)
  recHead s (unitSeg i) ++
    [putField 58 6 (min slots 36) ||| putField 56 2 ((c.map (fun p => p.2.attempts)).getD 0) |||
      putField 0 32 (pcOf (c.map (fun p => (p.1, p.2.idx))))]

/-- The application of a combine that a capture finds under way at a unit: a free one of the cord's n - 1 (R81, log 47). -/
def applicationOf (s : State) (k : Nat) (o : OpenCord) : Nat := (Config.freeWord (s.free + 1 + k)).toNat % (max (o.ops.length - 1) 1)

/-- Kiln unit records. -/
def recKiln (s : State) (k : Nat) : List Word :=
  let c := combineAtUnit s (fun x o => x.node.stage.val != 0 && kilnFor s o.idx == some k)
  recHead s (unitKiln k) ++
    [bitAt 63 (s.kiln.unitWorking.getLsbD k) ||| putField 61 2 ((c.map (fun p => p.2.attempts)).getD 0) |||
      putField 55 6 ((c.map (fun p => applicationOf s k p.2)).getD 0) |||
      putField 0 32 (pcOf (c.map (fun p => (p.1, p.2.idx))))]

/-- Bank records. -/
def recBank (s : State) (b : Nat) : List Word :=
  let n := fun (f : BufUse → Bool) => (s.kiln.used.filter (fun p => p.1 / 384 == b && f p.2)).length
  let working := s.kiln.bankWorking.getLsbD b
  let usable := if working then 384 - (s.kiln.bufRetired.filter (fun x => x / 384 == b)).length else 0
  recHead s (unitBank b) ++
    [bitAt 63 working ||| putField 54 9 (usable - n (fun _ => true)) ||| putField 45 9 (n (fun u => match u with
        | .node _ => true
        | _ => false)) |||
      putField 36 9 (n (fun u => match u with
        | .permit _ => true
        | _ => false)) ||| putField 27 9 (n (fun u => u == .arrival)) ||| putField 18 9 (n (fun u => u == .hall))]

/-- S4 of ports and modules: the credits held. -/
def recCredits (l : LinkSt) : Word :=
  let c := fun (v : Nat) => ((l.chans[v]?).map (fun x => x.credits)).getD 0
  putField 53 11 (c 0) ||| putField 42 11 (c 1) ||| putField 31 11 (c 2) ||| putField 20 11 (c 3) ||| putField 9 11 (c 4)

/-- Port and module records. -/
def recLink (s : State) (k : Nat) : List Word :=
  let l := linkAt s k
  recHead s (unitLink k) ++
    (if k < 18 then [rPortStatus s k, putField 52 12 l.nextSeq.toNat ||| putField 40 12 l.ackSeq.toNat |||
        putField 30 10 l.replay.length ||| putField 23 7 l.txq.length]
     else [rModuleStatus s (k - 18), putField 23 7 l.txq.length]) ++ [recCredits l]

/-- The plan engine's record. -/
def recPlan (s : State) : List Word :=
  recHead s unitPE ++
    [putField 52 12 ((s.kiln.waiting.head?.map Prod.fst).getD 0) ||| bitAt 51 (!s.kiln.waiting.isEmpty) |||
      putField 38 13 s.kiln.nodes.length]

/-- The finishing stage's record: as many busy pipes as raw root cords wait, up to eight, at free places (R124, log 47). -/
def recFinish (s : State) : List Word :=
  let n := (s.inbox.filter (fun a => match a.body with
    | .root _ => true
    | _ => false)).length
  let masks := (List.range 256).filter (fun m => popcount8 (BitVec.ofNat 8 m) = min n 8)
  recHead s unitFS ++ [putField 56 8 ((masks[(Config.freeWord (s.free + 9)).toNat % max masks.length 1]?).getD 0)]

/-- The fill of the lanes of a direction in beats, 6 bits for each ring. -/
def laneFills (s : State) (east : Bool) : Word :=
  BitVec.ofNat 64 ((List.range 8).foldl (fun m r => m + (4 * (laneAt s r east).length) % 64 * 2 ^ (58 - 6 * r)) 0)

/-- The seam bridge's record: the fill of the eastbound and the westbound lanes. -/
def recSeam (s : State) : List Word := recHead s unitSB ++ [laneFills s true, laneFills s false]

/-- The plan and cord of the landing in progress. -/
def landingPC (l : Leaf) : Option (Nat × Nat) := (l.writing.filter (fun w => !w.void)).bind (fun w => w.cord.map (fun c => (cPlan c, cIdx c)))

/-- Leaf records. -/
def recLeaf (s : State) (t : Nat) : List Word :=
  let l := leafAt s t
  let base := 8 * s.freeze.counterBase.toNat
  let c := fun (i : Nat) => (smGet 0 l.counters (base + i)).toNat
  recHead s (unitSeg (segOf t)) ++
    [bitAt 63 l.stepOpen ||| putField 55 8 l.fireQ.length ||| putField 47 8 (l.trigs.filter (fun x => x.armed)).length |||
       putField 40 7 l.lands.length,
     putField 32 32 (pcOf ((l.reading.filter (fun r => !r.void)).map (fun r => (r.firing.plan, r.firing.cord)))) |||
         putField 0 32 (pcOf (landingPC l))] ++
    (List.range 4).map (fun w => putField 32 32 (c (2 * w)) ||| putField 0 32 (c (2 * w + 1)))

/-- A domain captures: it is WARM, or BANKED and captures as it wakes the state that it holds; one that is OFF captures nothing (R420). -/
def captures (s : State) (d : Nat) : Bool :=
  match domSt s d with
  | .warm => true
  | .banked => true
  | .waking => (dom s d).ret
  | .off => false

/-- The record of the unit of a domain D1 to D59. -/
def recDom (s : State) (d : Nat) : List Word :=
  if d ≤ 16 then recSeg s (d - 1) else if d ≤ 24 then recKiln s (d - 17) else if d ≤ 32 then recBank s (d - 25)
  else if d ≤ 56 then recLink s (d - 33) else if d = 57 then recPlan s else if d = 58 then recFinish s else recSeam s

/-- The words of a record from its offset on. -/
def recWords (off : Nat) (ws : List Word) : List (Nat × Word) := ws.mapIdx (fun i w => (off + 8 * i, w))

/-- Every snapshot record (R438). -/
def snapRecords (s : State) : List (Nat × Word) :=
  ((List.range 59).map (· + 1)).flatMap (fun d => if captures s d then recWords (recordOf d) (recDom s d) else []) ++
  (List.range 576).flatMap (fun t => if captures s (segOf t + 1) then recWords (0x41000 + 64 * t) (recLeaf s t) else [])

/-- The unit of a counter captures: its domain does, or it lies in D0 (R421). -/
def capturesAt (s : State) (a : Nat) : Bool :=
  match regDomain a with
  | some d => captures s d
  | none => true

/-- Address of the RL copy of the counter at an offset (R436). -/
def mirrorAddr (a : Nat) : Nat := 0x800000 + a % 0x400000

/-- The RL copies of the counters, of the time-exchange words and of the hall flows' counters (R436, R437). -/
def mirrorWords (s : State) : List (Nat × Word) :=
  (s.ctr.filter (fun p => mirrored p.1 && capturesAt s p.1)).map (fun p => (mirrorAddr p.1, BitVec.ofNat 64 p.2)) ++
  ((List.range 24).filter (fun k => captures s (domLink k))).map (fun k => (0x800000 + linkBase k + 0x150, leastDelay s k)) ++
  ((List.range 18).filter (fun k => captures s (domLink k) && isEth s k)).flatMap (fun k =>
    let base := 0x2000000 + k * 65 * 16
    (linkAt s k).flows.flatMap (fun f => f.2.ctr.map (fun c => (base + f.1 * 16 + c.1, BitVec.ofNat 64 c.2))) ++
    (linkAt s k).strayCtr.map (fun c => (base + 64 * 16 + c.1, BitVec.ofNat 64 c.2)))

/-- What a capture leaves in the snapshot region and the capture mirror. -/
def snapshot (s : State) : SMap Word := (snapRecords s ++ mirrorWords s).foldr (fun p m => smSet 0 m p.1 p.2) []

end Sys2Proof.Machine
end

