-- ==== Sys2Proof/Machine/Observe.lean ====
section
/-! DEFINITION. Observe.lean: the ash log, counters, freezes and fault injectors (chapter 15; R434). -/

namespace Sys2Proof.Machine

/-! ### Captures (R418 to R422) -/

/-- The state code of an armed freeze for FREEZE_ARMED. -/
def logArmed (f : ArmedFreeze) (s : State) : State := logWide 0x0A02 unitEmber f.tick f.id.toNat f.source.toNat s

/-- A capture at once (R421): skipped and logged while one is held (R422); freezes stop with D62 (R410). -/
def capture (f : ArmedFreeze) (late : Option Nat) (s : State) : State :=
  if s.log.disabled then s
  else if s.freeze.held then logEv 0x0A04 unitEmber f.id.toNat s.freeze.freezeId.toNat s
  else
    let words := snapshot s
    let fz := { s.freeze with held := true, late := late.isSome, source := f.source, freezeId := f.id,
                              lateTicks := satOf 32 (late.getD 0), captureTime := stampOf unitPE s, captured := words }
    logEv 0x0A03 unitEmber f.id.toNat (late.getD 0) (useFree { s with freeze := fz })

/-- A FREEZE message (Table: FREEZE body). -/
def mkFreeze (s : State) (dest : Nat) (f : ArmedFreeze) (m3 : Word) : Msg :=
  { msgZero with m0 := mkM0 s 6 dest, m1 := f.tick, m2 := putField 48 16 f.id.toNat ||| putField 46 2 f.source.toNat, m3 := m3 }

/-- A system freeze is armed at this instance: its tick shows in KX_FREEZE_TICK; one whose tick has passed captures at once (R420). -/
def armSystem (f : ArmedFreeze) (s : State) : State :=
  let s1 := { s with freeze := { s.freeze with tickReg := f.tick, lastId := f.id } }
  if f.tick.toNat ≤ s.time.tick.toNat then capture f (some (s.time.tick.toNat - f.tick.toNat)) s1
  else logArmed f { s1 with freeze := { s1.freeze with pendingSys := some f } }

/-- The master accepts a freeze: it takes the next FREEZE_ID, floods it and arms it here (R418). -/
def acceptFreeze (tick : Word) (source : BitVec 2) (m3 : Word) (s : State) : State :=
  let f : ArmedFreeze := { tick := tick, id := s.freeze.lastId + 1, source := source }
  armSystem f (flood (mkFreeze s 0xFFFFFF f m3) { s with freeze := { s.freeze with refuse := 0 } })

/-- A system freeze that this instance has not done with: one is armed, or the capture of one is still held (R418, R422). -/
def freezePending (s : State) : Bool :=
  s.freeze.pendingSys.isSome || (s.freeze.held && decide (s.freeze.source.toNat ≤ 1))

/-- Why ARM is refused, lowest first: 1 not MASTER, 2 a freeze is pending, 3 the lead is below 10,000 ticks; 0 accepted (R418). -/
def freezeReason (s : State) : Nat :=
  if s.time.state ≠ .master then 1
  else if freezePending s then 2
  else if s.freeze.tickReg.toNat < s.time.tick.toNat + 10000 then 3
  else 0

/-- ARM (R418): ignored and counted away from the time master; accepted there, or refused and logged. -/
def armFreeze (s : State) : State :=
  if !isCoordinator s then countIgnored 0x228 s
  else
    let r := freezeReason s
    if r = 0 then acceptFreeze s.freeze.tickReg 0 0 s
    else logEv 0x0106 unitEmber 0x228 (stepCode s) { s with freeze := { s.freeze with refuse := BitVec.ofNat 4 r } }

/-- LOCAL_ARM (R418): a freeze of this instance alone, with FREEZE_ID 0. -/
def armLocal (s : State) : State :=
  let f : ArmedFreeze := { tick := s.freeze.tickReg, id := 0, source := 2 }
  logArmed f { s with freeze := { s.freeze with pendingLocal := some f } }

/-- SNAP_RELEASE (R422). -/
def releaseSnap (s : State) : State :=
  { s with freeze := { s.freeze with held := false, late := false, source := 0, freezeId := 0, lateTicks := 0 } }

/-- A host write to KX_FREEZE_CTRL: the trigger fields are set, then ARM, LOCAL_ARM and SNAP_RELEASE act. -/
def writeFreezeCtrl (v : Word) (s : State) : State :=
  let s1 := { s with freeze := { s.freeze with trigEn := bitOf v 60, trigSystem := bitOf v 59,
                                               counterBase := BitVec.ofNat 3 (fieldOf v 56 3),
                                               trigEvent := BitVec.ofNat 16 (fieldOf v 40 16) } }
  let s2 := if bitOf v 63 then armFreeze s1 else s1
  let s3 := if bitOf v 62 then armLocal s2 else s2
  if bitOf v 61 then releaseSnap s3 else s3

/-- ARM of KX_FREEZE_CTRL (R418). -/
def execFreezeArm (v : Word) (s : State) : Host.Outcome State Fault Refusal := done s (hostWrite s (writeFreezeCtrl v))

/-- LOCAL_ARM of KX_FREEZE_CTRL (R418). -/
def execLocalArm (v : Word) (s : State) : Host.Outcome State Fault Refusal := done s (hostWrite s (writeFreezeCtrl v))

/-- SNAP_RELEASE of KX_FREEZE_CTRL (R422). -/
def execSnapRelease (v : Word) (s : State) : Host.Outcome State Fault Refusal := done s (hostWrite s (writeFreezeCtrl v))

/-- A host write to KX_FREEZE_TICK. -/
def writeFreezeTick (v : Word) (s : State) : State := { s with freeze := { s.freeze with tickReg := v } }

/-- A flooded FREEZE is forwarded once and armed (R418, R381); a request is armed by a master with no freeze pending, or discarded and
logged (R419). -/
def takeFreeze (a : Arrival) (m : Msg) (s : State) : State :=
  let id := fieldOf m.m2 48 16
  if id = 0 then
    (if s.time.state == .master && s.freeze.pendingSys.isNone then
      acceptFreeze (s.time.tick + 10000) 1 m.m3 s
     else logEv 0x0106 unitEmber 0x228 (stepCode s) s)
  else if id ≤ s.freeze.lastId.toNat then s
  else
    armSystem { tick := m.m1, id := BitVec.ofNat 16 id, source := BitVec.ofNat 2 (fieldOf m.m2 46 2) }
      (if fromLink a then flood m s else s)

/-- Take a management message of a type that is for this instance, or flooded, from the inbox. -/
def takeMgmt (i type : Nat) (f : Arrival → Msg → State → State) (s : State) : State :=
  match s.inbox[i]? with
  | none => s
  | some a => match a.body with
    | .mgmt m => if mType m = type ∧ (mDest m = me s ∨ mDest m = 0xFFFFFF) then f a m { s with inbox := dropAt s.inbox i } else s
    | _ => s

/-- FREEZE (R418, R419). -/
def execFreeze (i : Nat) (s : State) : Host.Outcome State Fault Refusal := done s (takeMgmt i 6 takeFreeze s)

/-- The freezes armed here, the system one first. -/
def armedFreezes (s : State) : List ArmedFreeze := s.freeze.pendingSys.toList ++ s.freeze.pendingLocal.toList

/-- FREEZE_PREWAKE (R420): 3,200 ticks before a freeze tick every BANKED domain is requested, but for those that stay BANKED until the
next kindling (R350). -/
def execFreezePrewake (s : State) : Host.Outcome State Fault Refusal :=
  done s (if (armedFreezes s).any (fun f => decide (f.tick.toNat ≤ s.time.tick.toNat + 3200)) then
      requestDoms (blockDoms.filter (fun d => domSt s d == .banked && !heldBanked s d)) s
    else s)

/-- The armed freeze whose tick has come. -/
def dueFreeze (s : State) : Option ArmedFreeze :=
  (armedFreezes s).find? (fun f => decide (f.tick.toNat ≤ s.time.tick.toNat))

/-- FREEZE_CAPTURE (R420, R421). -/
def execFreezeCapture (s : State) : Host.Outcome State Fault Refusal :=
  done s (match dueFreeze s with
    | none => s
    | some f =>
      let fz := if s.freeze.pendingSys = some f then { s.freeze with pendingSys := none } else { s.freeze with pendingLocal := none }
      capture f none { s with freeze := fz })

/-! ### Writing the log (R410 to R416) -/

/-- E1 of an entry. -/
def entryE1 (e : LogEvent) (rep seqLo : Nat) : Word :=
  putField 48 16 e.event.toNat ||| putField 45 3 e.sev.toNat ||| bitAt 44 e.fwd ||| putField 40 4 rep |||
    putField 32 8 e.unit.toNat ||| putField 8 24 e.origin.toNat ||| putField 0 8 seqLo

/-- The entry of an event under a sequence number (R411). -/
def entryOf (e : LogEvent) (seq : Nat) : LogEntry :=
  { e0 := e.time, e1 := entryE1 e 0 seq, e2 := e.e2, e3 := putField 32 32 e.argA.toNat ||| putField 0 32 e.argB.toNat }

/-- An event coalesces into an entry (R414): equal in EVENT, UNIT, ORIGIN, STEP, ATTEMPT and ARG_A, no more than 1,000,000 ticks later,
with REPEAT below 15. -/
def coalesces (e : LogEvent) (x : LogEntry) : Bool :=
  fieldOf x.e1 48 16 == e.event.toNat && fieldOf x.e1 32 8 == e.unit.toNat && fieldOf x.e1 8 24 == e.origin.toNat &&
    x.e2 == e.e2 && fieldOf x.e3 32 32 == e.argA.toNat &&
    decide (x.e0.toNat / 16 ≤ e.time.toNat / 16) && decide (e.time.toNat / 16 ≤ x.e0.toNat / 16 + 1000000) &&
    decide (fieldOf x.e1 40 4 < 15)

/-- In STOP mode the log stops writing when WRITE_SEQ - READ_SEQ reaches 32,768 (R415). -/
def logStopped (s : State) : Bool := s.log.stopMode && decide (32768 ≤ s.log.writeSeq.toNat - s.log.readSeq.toNat)

/-- The collector of forwarded entries (R416). -/
def collector (s : State) : Nat := if s.log.fwdTarget = 0xFFFFFF then coordinator s else s.log.fwdTarget.toNat

/-- A locally logged entry that is severe enough goes to the collector (R416). -/
def forwardEntry (e : LogEvent) (x : LogEntry) (s : State) : State :=
  if e.fwd || decide (7 ≤ s.log.fwdMinSev.toNat) || decide (e.sev.toNat < s.log.fwdMinSev.toNat) || collector s == me s then s
  else
    let d := collector s
    let s1 := passForward d { msgZero with m0 := mkM0 s 7 d, m1 := x.e0, m2 := x.e1, m3 := x.e2, m4 := x.e3 } s
    if roomForward s d then { s1 with log := { s1.log with fwdSent := satAdd s1.log.fwdSent 1 } } else s1

/-- A locally logged entry whose event is TRIG_EVENT captures at once, and with TRIG_SYSTEM asks the master for a freeze (R419). -/
def triggerOn (e : LogEvent) (s : State) : State :=
  if e.fwd || !s.freeze.trigEn || e.event != s.freeze.trigEvent then s
  else
    let s1 := capture { tick := s.time.tick, id := 0, source := 3 } none s
    if !s.freeze.trigSystem then s1
    else
      let co := coordinator s1
      route co (mkFreeze s1 co { tick := 0, id := 0, source := 1 } (putField 48 16 e.event.toNat ||| putField 24 24 (me s1))) s1

/-- The LOST entry (R413): how many events were discarded, with the time and step of the first. -/
def lostEvent (first : LogEvent) (n : Nat) (s : State) : LogEvent :=
  { time := first.time, event := 0x0A01, sev := 2, fwd := false, unit := 0xFF, origin := s.kindle.instanceId, e2 := first.ctx,
    argA := satOf 32 n, argB := 0, ctx := first.ctx }

/-- Space has returned after events were discarded: the LOST entry takes the place kept for it (R413). -/
def queueLost (s : State) : State :=
  match s.log.lostFirst with
  | none => s
  | some f =>
    if 64 ≤ s.log.queue.length ∨ s.log.queue.any (fun e => e.event == 0x0A01 && !e.fwd) then s
    else { s with log := { s.log with queue := s.log.queue ++ [lostEvent f s.log.lostCount s], lostCount := 0, lostFirst := none } }

/-- A new entry is written with the next WRITE_SEQ; overwriting an unread one counts in OVERRUN (R413, R415). -/
def writeEntry (e : LogEvent) (s : State) : State :=
  let n := s.log.writeSeq.toNat
  let x := entryOf e n
  let passed := decide (32768 ≤ n) && decide (s.log.readSeq.toNat ≤ n - 32768)
  let lg := { s.log with entries := smPut s.log.entries (n % 32768) x, writeSeq := s.log.writeSeq + 1,
                         overrun := if passed then satAdd s.log.overrun 1 else s.log.overrun }
  triggerOn e (forwardEntry e x { s with log := lg })

/-- The last entry written. -/
def lastSlot (s : State) : Nat := (s.log.writeSeq.toNat - 1) % 32768

/-- The event at the head of the queue is written, or coalesces (R413, R414). -/
def logWrite (s : State) : State :=
  if s.log.filling || s.log.disabled || logStopped s then s
  else match s.log.queue with
    | [] => s
    | e :: q =>
      let s1 := { s with log := { s.log with queue := q } }
      let x := logSlot s (lastSlot s)
      if s.log.writeSeq ≠ 0 ∧ coalesces e x then
        let y := { x with e1 := setField x.e1 40 4 (fieldOf x.e1 40 4 + 1) }
        queueLost { s1 with log := { s1.log with entries := smPut s1.log.entries (lastSlot s) y } }
      else queueLost (writeEntry e s1)

/-- LOG_WRITE (R413). -/
def execLogWrite (s : State) : Host.Outcome State Fault Refusal := done s (logWrite s)

/-- An entry received by forwarding: it keeps ORIGIN and has FWD 1 (R416). A wide event's E2 holds no step, and the one here stands for it in a
LOST entry (R413). -/
def forwarded (s : State) (m : Msg) : LogEvent :=
  { time := m.m1, event := BitVec.ofNat 16 (fieldOf m.m2 48 16), sev := BitVec.ofNat 3 (fieldOf m.m2 45 3), fwd := true,
    unit := BitVec.ofNat 8 (fieldOf m.m2 32 8), origin := BitVec.ofNat 24 (fieldOf m.m2 8 24), e2 := m.m3,
    argA := BitVec.ofNat 32 (fieldOf m.m4 32 32), argB := BitVec.ofNat 32 (fieldOf m.m4 0 32),
    ctx := if [0x0201, 0x0A02].contains (fieldOf m.m2 48 16) then stepContext s else m.m3 }

/-- LOG_FORWARD (R416): the collector takes the entry into its log. -/
def execLogForward (i : Nat) (s : State) : Host.Outcome State Fault Refusal :=
  done s (takeMgmt i 7 (fun _ m t => pushEvent (forwarded t m) t) s)

/-- LOG_FILL_DONE (R410): every entry is zero, and the queued events may be written. -/
def execLogFillDone (s : State) : Host.Outcome State Fault Refusal :=
  done s { s with log := { s.log with filling := false } }

/-- A host write to KX_LOG_READ_SEQ (R415). -/
def writeReadSeq (v : Word) (s : State) : State := { s with log := { s.log with readSeq := BitVec.ofNat 48 (fieldOf v 0 48) } }

/-- LOG_READ_SEQ_WRITE (R415). -/
def execLogReadSeqWrite (v : Word) (s : State) : Host.Outcome State Fault Refusal := done s (hostWrite s (writeReadSeq v))

/-- CLEAR_COUNTERS (R417, R434): every counter but the corrected-error counts and retirement records, and the register port's counts. -/
def clearCounters (s : State) : State :=
  let s1 := ctrClear s
  { s1 with
    links := s1.links.map (fun p => (p.1, { p.2 with strayCtr := [], flows := p.2.flows.map (fun f => (f.1, { f.2 with ctr := [] })) })),
    rp := { s1.rp with ignored := 0, cold := 0, decodeErr := 0 } }

/-- A host write to KX_LOG_CTRL. -/
def writeLogCtrl (v : Word) (s : State) : State :=
  let s1 := { s with log := { s.log with stopMode := bitOf v 63, fwdMinSev := BitVec.ofNat 3 (fieldOf v 60 3),
                                         fwdTarget := BitVec.ofNat 24 (fieldOf v 36 24),
                                         threshold := BitVec.ofNat 16 (fieldOf v 20 16) } }
  if bitOf v 19 then clearCounters s1 else s1

/-- CLEAR_COUNTERS of KX_LOG_CTRL (R417). -/
def execClearCounters (v : Word) (s : State) : Host.Outcome State Fault Refusal := done s (hostWrite s (writeLogCtrl v))

/-! ### Fault injectors (R423 to R427) -/

/-- ARMED of KX_INJ_GLOBAL. -/
def armedMask (s : State) : Nat := (List.range 24).foldl (fun n j => if (injAt s j).armed then n + 2 ^ j else n) 0

/-- Every HOLD and REORDER ends at once (R427). -/
def endHolds (s : State) : State :=
  forEach (List.range 24) s (fun j t => releaseReorder j (setInj j (fun u => { u with holding := false }) t))

/-- A host write to KX_INJ_GLOBAL: a change of ENABLE is logged, and its fall ends every HOLD and REORDER (R423, R427). -/
def writeInjGlobal (v : Word) (s : State) : State :=
  let en := bitOf v 63
  if en = s.inject.enable then s
  else
    let s1 := logEv 0x0A05 unitBlock (if en then 1 else 0) (armedMask s) { s with inject := { s.inject with enable := en } }
    if en then s1 else endHolds s1

/-- INJ_ENABLE_WRITE (R423). -/
def execInjEnableWrite (v : Word) (s : State) : Host.Outcome State Fault Refusal := done s (hostWrite s (writeInjGlobal v))

/-- Offset of a register of injector `j`. -/
def injOff (j o : Nat) : Nat := 0x50000 + 0x40 * j + o

/-- The offset of an injector's register. -/
def injRegOff (r : InjReg) : Nat :=
  match r with
  | .ctrl => 0
  | .matchReg => 8
  | .param => 0x10
  | .seed => 0x18

/-- A write to an injector's register (R424, R427): while it is armed only DISARM and the seed take effect; any other write to its control,
match or parameter register is ignored and counted. -/
def writeInjector (j : Nat) (r : InjReg) (v : Word) (s : State) : State :=
  let u := injAt s j
  match r with
  | .seed => setInj j (fun x => { x with seed := v }) s
  | .matchReg => if u.armed then countIgnored (injOff j 8) s else setInj j (fun x => { x with matchReg := v &&& 0xFFFFFFFFF8000000 }) s
  | .param => if u.armed then countIgnored (injOff j 0x10) s else setInj j (fun x => { x with param := v &&& 0xFFFFFFFFFE00FFFF }) s
  | .ctrl =>
    if u.armed then
      (if bitOf v 55 then logEv 0x0A07 (unitLink j) j 2 (setInj j (fun x => { x with armed := false }) s)
       else countIgnored (injOff j 0) s)
    else
      let c := v &&& 0xFE00FFFFFFFFFFFF
      if bitOf v 56 && !bitOf v 55 then setInj j (fun x => { x with ctrl := c, armed := true, matched := 0, injected := 0 }) s
      else setInj j (fun x => { x with ctrl := c }) s

/-- A host write to an injector's register, in the domain of its link (R339). -/
def hostInjector (j : Nat) (r : InjReg) (v : Word) (s : State) : State :=
  hostWrite s (warmWrite (injOff j (injRegOff r)) (writeInjector j r v))

/-- INJ_ARM (R424). -/
def execInjArm (j : Fin 24) (v : Word) (s : State) : Host.Outcome State Fault Refusal := done s (hostInjector j.val .ctrl v s)

/-- INJ_DISARM (R427). -/
def execInjDisarm (j : Fin 24) (v : Word) (s : State) : Host.Outcome State Fault Refusal := done s (hostInjector j.val .ctrl v s)

/-- INJECTOR_REG_WRITE (R427). -/
def execInjectorRegWrite (j : Fin 24) (r : InjReg) (v : Word) (s : State) : Host.Outcome State Fault Refusal :=
  done s (hostInjector j.val r v s)

/-- REORDER_RELEASE (R425): the wait ends. -/
def execReorderRelease (j : Fin 24) (s : State) : Host.Outcome State Fault Refusal := done s (releaseReorder j.val s)

/-- INJECT_HOLD_END (R425): the channels may be granted again. -/
def execInjectHoldEnd (j : Fin 24) (s : State) : Host.Outcome State Fault Refusal :=
  done s (setInj j.val (fun u => { u with holding := false }) s)

/-- Re-kindling disarms every injector, clears ENABLE and releases any capture (R427). -/
def rekindleObserve (s : State) : State :=
  let s1 := endHolds (if s.inject.enable then
    logEv 0x0A05 unitBlock 0 0 { s with inject := { s.inject with enable := false } } else s)
  let s2 := forEach ((List.range 24).filter (fun j => (injAt s j).armed)) s1 (fun j t =>
    logEv 0x0A07 (unitLink j) j 3 (setInj j (fun x => { x with armed := false }) t))
  { s2 with freeze := { s2.freeze with held := false, late := false, source := 0, freezeId := 0, lateTicks := 0, captured := [],
                                       captureTime := 0, lastId := 0 } }

end Sys2Proof.Machine
end

