-- ==== Sys2Proof/Machine/Nodes.lean ====
section
/-! DEFINITION. Nodes.lean: cords at the combine nodes, the finishing stage and the landing dies, admission and its notices, kiln memory
reads (chapters 03, 04 and 07). -/

namespace Sys2Proof.Machine

/-! ### Which step a cord belongs to (R56, R182, R183) -/

/-- The cord index of an item, 0 for a message. -/
def arrivalIdx (a : Arrival) : Nat :=
  match a.body with
  | .cord c => cIdx c
  | .root c => cIdx c
  | _ => 0

/-- The number of a relayed link among the channels' links (R212). -/
def relayKey (inst : Nat) : Nat := 4096 + inst

/-- The die that sent a cord received on a module, where a relay carried it here (R212): the child die of a rising cord, the placement of the
level 1 node above for a descending one, and the source die of another. -/
def relaySource (s : State) (k vc : Nat) (c : Cord) : Option Nat :=
  let group := if cKind c = 9 then groupNow s (sealGroup s) else (entryAt s (cPlan c)).bind (entryGroup s)
  let sender := if vc = 1 then group.bind (fun g => siteOf s.kiln.places g.num 1 (coordAt 1 (cTarget c)) (cIdx c))
    else some (holderOf s (cSource c))
  match sender with
  | some i => if 18 ≤ k ∧ (relayedBy s (peerOf s k 0)).contains i then some i else none
  | none => none

/-- The channel that an arrival came by: link (with the flow on an Ethernet port, and a relayed link as one of its own) and virtual channel. -/
def channelOf (s : State) (a : Arrival) : Option (Nat × Nat) :=
  match a.src with
  | .link l f =>
    let k := linkNo l
    let relay := match a.body with
      | .cord c => relaySource s k a.vc c
      | .ctrl m => relayFrom m
      | _ => none
    some (match relay with
      | some i => relayKey i
      | none => if isEth s k then 1000 + 64 * k + f else k, a.vc)
  | _ => none

/-- An item on the rings came in at the link that it names, and does not go to it. -/
def incoming (it : RingItem) : Bool :=
  match it.item.src with
  | .link l _ => it.src == stopOf (unitLink (linkNo l)) && !it.item.relay
  | _ => false

/-- A drain marker that came by the channel of an item before it has not been taken yet (R182, R250). -/
def drainAhead (s : State) (a : Arrival) : Bool :=
  let before := fun (x : Arrival) => isMark x && decide (x.seq < a.seq) && channelOf s x == channelOf s a
  (channelOf s a).isSome && (s.inbox.any before || s.fabric.items.any (fun it => incoming it && before it.item))

/-- The channel that an arrival came by is in a list of channels. -/
def onChannel (s : State) (l : List (Nat × Nat)) (a : Arrival) : Bool :=
  match channelOf s a with
  | some p => l.contains p
  | none => false

/-- A cord against the step: 0 it belongs to the open attempt, 1 it came before this instance opens, 2 it is stale (R182, R183). -/
def stepMatch (s : State) (a : Arrival) (c : Cord) : Nat :=
  if s.step.state = .halted then 2
  else if cStep c = stepNo s then
    (if onChannel s s.step.draining a then 2 else if running s && !onChannel s s.step.drained a then 0 else 1)
  else if cStep c = stepNo s + 1 then 1
  else 2

/-- A cord that came early waits in the arrival reserve, in the buffer that a hall unit of it came in or another; with the reserve full its
sender holds it (R183, R190, R202). -/
def holdEarly (a : Arrival) (c : Cord) (before after : State) : State :=
  if policy before (fun p => p.arrivalReserve) 64 ≤ usedOf after .arrival then before
  else match a.buf.elim (pickBuf after (cIdx c)) some with
    | some b => takeBuf b .arrival { after with kiln := { after.kiln with
        early := after.kiln.early ++ [{ buf := b, item := { a with buf := none, bad := false }, bad := a.bad }] } }
    | none => before

/-- Take the cord that is item `i` of the inbox, if it is one that `want` names: it is discarded under the first reason of R56 that
applies, held if it is early, or given to `f`, which answers none where the cord stays with its sender. -/
def receive (i : Nat) (want : Arrival → Cord → Bool) (f : Arrival → Cord → PlanEntry → State → Option State) (s : State) : State :=
  match s.inbox[i]? with
  | none => s
  | some a =>
    match a.body with
    | .cord c =>
      if !want a c || drainAhead s a then s
      else
        let s0 := withSome a.buf { s with inbox := dropAt s.inbox i } giveBuf
        let drop := fun (r : Nat) => discard (cPlan c) (cIdx c) r (kilnCode s (cIdx c)) s0
        if !isReady s then drop 5
        else match stepMatch s a c with
          | 2 => drop 3
          | 1 => holdEarly a c s s0
          | _ =>
            match entryAt s (cPlan c) with
            | none => drop 2
            | some e =>
              if !eOpActive e (cStep c) then drop 2
              else if cEpoch c ≠ epochOf s (eGroup e) then drop 4
              else ((f a c e s0).map (fun t => if a.bad then raiseUnclean uEcc t else t)).getD s
    | _ => s

/-- A discard as a mismatch of R56. -/
def mismatch (c : Cord) (s : State) : State := discard (cPlan c) (cIdx c) 1 (kilnCode s (cIdx c)) s

/-- Kind, format and row count are those that the entry fixes for the cord index (R56). -/
def cordFits (s : State) (e : PlanEntry) (c : Cord) : Bool :=
  cKind c == eKind e && cFmt c == fmtOfCord e (posNow s e) (cIdx c) && decide (cIdx c < cordsNow s e) &&
    cRows c == rowsOfCord e (posNow s e) (cIdx c)

/-! ### Upward cords (R13, R35, R106) -/

/-- The node that an upward cord reaches, and the child position it comes from. -/
def nodeOfArrival (s : State) (a : Arrival) (c : Cord) : NodeId × Nat := nodeOfSrc s a.src c

/-- Take a cord as the operand of a child for its index: a node with a claim keeps it in a cord buffer, the one that it has had since before
the open or another (R188, R192, R202). -/
def takeOperand (x : NodeInst) (child : Nat) (kept : Option Nat) (c : Cord) (s : State) : State :=
  let b := if x.claim = 0 then none else kept.elim (pickBuf s (cIdx c)) some
  let s1 := withSome b s (fun b t => takeBuf b (.node x.plan) t)
  modOpen x.plan x.node (cIdx c) (fun o =>
    { o with ops := o.ops ++ [{ child := child, buf := b.getD noBuf, cord := c }], lastTick := s.time.tick }) s1

/-- A node instance is the root of its entry's group. -/
def isRootInst (s : State) (e : PlanEntry) (n : NodeId) : Bool :=
  match entryGroup s e with
  | some g => isRootNode g n
  | none => false

/-- The skew of an index: from its first child's cord to its last (R402). -/
def noteSkew (plan : Nat) (n : NodeId) (c : Nat) (s : State) : State :=
  modNode plan n (fun x => match findOpen x c with
    | some o => { x with maxSkew := max x.maxSkew (o.lastTick.toNat - o.firstTick.toNat) }
    | none => x) s

/-- A cord that reached its node is held until its position's turn (R13); one that is the only child's passes through (R35), and a
BARRIER goes on once every child has fed, at the root downward (R106). -/
def atNode (x : NodeInst) (e : PlanEntry) (kids : List Nat) (child : Nat) (kept : Option Nat) (c : Cord) (s0 : State) : State :=
  let s := noteProgress (progKey (8 + x.node.stage.val) x.plan child) s0
  let s1 := takeOperand x child kept c (if x.node.stage.val = 0 then segCtr x.node.seg.val 0 1 s else s)
  let held := match (findNode s1 x.plan x.node).bind (fun y => findOpen y (cIdx c)) with
    | some o => o.ops.length
    | none => 0
  if held < kids.length then s1
  else
    let s2 := noteSkew x.plan x.node (cIdx c) s1
    let flags := ((findNode s2 x.plan x.node).bind (fun y => findOpen y (cIdx c))).elim (cFlags c) (fun o =>
      o.ops.foldl (fun a q => a ||| cFlags q.cord) (if o.late then fLate else 0))
    let out := passOutput s2 e x.node flags c
    if eKind e = 5 ∧ isRootInst s2 e x.node then
      let s3 := modOpen x.plan x.node (cIdx c) (fun o => { o with forwarded := true }) s2
      match entryGroup s3 e with
      | some g => rootBroadcast e g out s3
      | none => s3
    else if kids.length = 1 ∨ eKind e = 5 then complete x.plan x.node (cIdx c) out s2
    else s2

/-- An upward cord of a kind that uses the tree. -/
def arriveTree (a : Arrival) (c : Cord) (e : PlanEntry) (s : State) : Option State :=
  let p := nodeOfArrival s a c
  match findNode s (cPlan c) p.1, entryGroup s e with
  | some x, some g =>
    let kids := cordChildren s e g p.1 (cIdx c)
    if !cordFits s e c || !kids.contains p.2 || !handles s x (cIdx c) || x.closed.contains (cIdx c) ||
        (match findOpen x (cIdx c) with
          | some o => o.forwarded || o.sent || o.partialOut.isSome || o.ops.any (fun q => q.child == p.2)
          | none => false) then some (mismatch c s)
    else if !(x.admitted || x.claim == 0) || !inWin x (cIdx c) || !live s (nodeDom s p.1 (cIdx c)) then none
    else some (atNode x e kids p.2 a.buf c s)
  | _, _ => some (mismatch c s)

/-- The stop from which a PASS or MIRROR cord goes to its leaf: the port or module that it came by, or the leaf's own segment (R15). -/
def directFrom (a : Arrival) (t : Nat) : Nat :=
  match a.src with
  | .link l _ => unitLink (linkNo l)
  | _ => unitSeg (segOf t)

/-- A PASS or MIRROR cord at its target die: taken for its tile, once, when the PASS hold is admitted and, for a cord that must wait for its
permit, has a buffer left (R109, R110, R150, R192, R197). It passes through no kiln unit (R15). -/
def arriveDirect (a : Arrival) (c : Cord) (e : PlanEntry) (s : State) : Option State :=
  let from_ := if eKind e = 7 then (entryGroup s e).bind (fun g => dieOfMember g (argNow s e))
    else (myDie s).map (fun d => d ^^^ eArg e)
  if !cordFits s e c || from_ != some (cSource c) || !landsNow s e (cTile c) then some (mismatch c s)
  else match (physOf s (cTile c)).bind (fun t => (landFor (leafAt s t) (eIdx e)).map (fun x => (t, x.slot))) with
    | none => some (mismatch c s)
    | some d =>
      if s.kiln.landed.contains (landKey c) then some (duplicate c [d] s)
      else if s.kiln.passHolds.any (fun p => p.plan == eIdx e &&
          (!p.admitted || (eKind e == 7 && mustHold s d && decide (p.claim ≤ usedOf s (.permit (eIdx e)))))) then none
      else some (dieTakes (directFrom a d.1) e a.buf c [d] s)

/-- A header-only MIRROR cord is an acknowledgement (R225). -/
def isMirrorAck (c : Cord) : Bool := cKind c == 8 && cRows c == 0

/-- The arrivals of CORD_ARRIVE: upward cords of kinds 0 to 6, PASS and MIRROR cords. -/
def isUpward (a : Arrival) (c : Cord) : Bool :=
  (decide (cKind c ≤ 6) && a.vc == 0) || (cKind c == 7 && a.vc == 2) || (cKind c == 8 && a.vc == 3 && !isMirrorAck c)

/-- A cord at a node or at its target die. -/
def arrive (a : Arrival) (c : Cord) (e : PlanEntry) (s : State) : Option State :=
  if cKind c ≤ 6 then arriveTree a c e s else arriveDirect a c e s

/-- An upward cord reaches a combine node and is held until its position's turn (R13); error words met in kiln memory are dealt with
first (R203). -/
def execCordArrive (i : Nat) (ecc : List EccHit) (s : State) : Host.Outcome State Fault Refusal :=
  done s (eccHits ecc (receive i isUpward arrive s))

/-! ### Combining (R34, R84 to R88) -/

/-- The rounding key of one element of one application at a node, where the entry rounds by key (R78 to R81). -/
def nodeKey (s : State) (e : PlanEntry) (n : NodeId) (c : Nat) (row app elem : Nat) : Option Nat :=
  if eKeyed e then
    some (keyBits s.step.seedHi s.step.seedLo (keyC0 s.step.number c)
      (keyC1 (eIdx e) n.stage.val row elem n.coord.toNat (if n.stage.val = 0 then n.seg.val else 0) app))
  else none

/-- The combined cord of a node and whether the node originated a non-finite value (R34, R68, R74, R372). -/
def combineAt (s : State) (e : PlanEntry) (n : NodeId) (c : Nat) (kids : List Nat) (o : OpenCord) : Cord × Bool :=
  let p := posNow s e
  let f := fmtOfCord e p c
  let ml := eMl e && f == eFmt e
  let rb := rowBytes ml f
  let rows := rowsOfCord e p c
  let ops := kids.filterMap (fun k => o.ops.find? (fun q => q.child == k))
  let r := combineCords (opSpecOf e p c) (nodeKey s e n c) rows (ops.map (fun q => rowsOfPayload rb rows (cMask q.cord) q.cord.payload))
  let fl := ops.foldl (fun a q => a ||| cFlags q.cord)
    (r.2 % 65536 ||| (if o.residue then fResidue else 0) ||| (if o.late then fLate else 0))
  (nodeOutput s e n c rows fl (maskOfRows r.1) (payloadOfRows rb 0 r.1), decide (fOrig ≤ r.2))

/-- A retry that passed at a kiln unit counts toward its prediction (R401): 4 within 10^8 ticks warn, 32 retire the unit at the next
boundary. -/
def residueRate (k : Nat) (s : State) : State :=
  let now := s.time.tick.toNat
  let l := inWindow now rateWindow (smGet [] s.kiln.retryTicks k) ++ [now]
  let s1 := { s with kiln := { s.kiln with retryTicks := smSet [] s.kiln.retryTicks k l } }
  let bit : BitVec 8 := BitVec.ofNat 8 (2 ^ k)
  let s2 := if 4 ≤ l.length ∧ !s.kiln.unitWarn.getLsbD k then
      setPend 0x20 (logEv 0x080C (unitKiln k) l.length 4
        { s1 with kiln := { s1.kiln with unitWarn := s1.kiln.unitWarn ||| bit } })
    else s1
  if 32 ≤ l.length then { s2 with kiln := { s2.kiln with unitDue := s2.kiln.unitDue ||| bit } } else s2

/-- An attempt whose residue checks mismatch: up to 2 retries (R85); the third retires the kiln unit, which raises RESIDUE and leaves the
cord to another unit (R86), or fails the die of a segment combiner (R87). -/
def residueFail (plan : Nat) (n : NodeId) (c : Nat) (o : OpenCord) (s : State) : State :=
  if o.attempts < 2 then modOpen plan n c (fun x => { x with attempts := x.attempts + 1 }) s
  else
    let u := nodeUnit s n c
    let s1 := modOpen plan n c (fun x => { x with attempts := 0, residue := true }) s
    let s2 := raiseUnclean uResidue (logEv 0x0402 u (argPC plan c) (if n.stage.val = 0 then 2 else 1) s1)
    if n.stage.val = 0 then dieFail 3 s2
    else match kilnFor s c with
      | some k => retireUnit k s2
      | none => s2

/-- An attempt whose checks pass: a retry is logged and counted; the node's output goes on (R85, R88). -/
def residuePass (plan : Nat) (n : NodeId) (c : Nat) (e : PlanEntry) (kids : List Nat) (o : OpenCord) (s : State) : State :=
  let u := nodeUnit s n c
  let k := (kilnFor s c).getD 0
  let s1 := if o.attempts = 0 then s else logEv 0x0401 u (argPC plan c) (o.attempts + 1) s
  let s2 := if n.stage.val = 0 then s1
    else
      let t := ctrAdd (0x30100 + 0x40 * k) 1 s1
      if o.attempts = 0 then t else residueRate k (ctrAdd (0x30110 + 0x40 * k) o.attempts t)
  let r := combineAt s2 e n c kids o
  complete plan n c r.1 (if r.2 then originate e s2 else s2)

/-- A combine attempt of cord `c` at a node completes, once every child's cord is there (R13, R84); the residue test makes it fail (R458). -/
def combineDone (plan : Nat) (n : NodeId) (c : Nat) (ok : Bool) (s : State) : State :=
  match findNode s plan n, entryAt s plan with
  | some x, some e =>
    (match entryGroup s e, findOpen x c with
      | some g, some o =>
        let kids := cordChildren s e g n c
        if running s && !o.forwarded && !o.sent && o.partialOut.isNone && decide (2 ≤ kids.length) && eKind e != 5 &&
            kids.all (fun k => o.ops.any (fun q => q.child == k)) && live s (nodeDom s n c) then
          let s1 := addCycles (if n.stage.val = 0 then 0x460008 + 0x40 * n.seg.val else 0x30108 + 0x40 * (kilnFor s c).getD 0) s
          if ok && !residueForced s (nodeUnit s n c) then residuePass plan n c e kids o s1 else residueFail plan n c o s1
        else s
      | _, _ => s)
  | _, _ => s

/-- COMBINE_DONE (R84): the operands' error words first (R203), then the attempt. -/
def execCombineDone (plan : BitVec 12) (n : NodeId) (cord : BitVec 16) (residueOk : Bool) (ecc : List EccHit) (s : State) :
    Host.Outcome State Fault Refusal :=
  done s (combineDone plan.toNat n cord.toNat residueOk (eccHits ecc s))

/-! ### The finishing stage (R14, R69, R114, R362) -/

/-- The rounding key of the finishing stage (R78): stage code 6, node, segment and application 0. -/
def finishKey (s : State) (e : PlanEntry) (c row elem : Nat) : Option Nat :=
  if eKeyed e then
    some (keyBits s.step.seedHi s.step.seedLo (keyC0 s.step.number c) (keyC1 (eIdx e) 6 row elem 0 0 0))
  else none

/-- The permutation table of a descriptor. -/
def permTable (s : State) (d : Word × Word) : List Nat :=
  match s.image with
  | some im => (im.tables[fdTable d]?).getD []
  | none => []

/-- The finished cord from the root's raw cord: the steps of R114 over its present rows, then the rows of R69 and R100 where it is absent.
Returns whether the stage originated a non-finite value (R372). -/
def finishedCord (s : State) (e : PlanEntry) (raw : Cord) : Cord × Bool :=
  let c := cIdx raw
  let p := posNow s e
  let f := cFmt raw
  let data := decide (eKind e ≤ 3) || (eKind e == 4 && decide (c < p * eQ e))
  let ml := eMl e && f == eFmt e
  let rows := rowsOfPayload (rowBytes ml f) (cRows raw) (cMask raw) raw.payload
  let d := if data then descOf s e else (0, 0)
  let r := if data then
      finishRows d (eFn e) f (eOvfNan e) (permTable s d) (if eKind e = 4 then 32 * eCap e else eLen e)
        (if eKind e = 4 then c % eQ e else c) (finishKey s e c) rows
    else (rows, 0)
  let g := if data then outFormat d f else f
  let fill := rootFill (eKind e) (eFn e) g
  let empty := if fill.2 && rows.any Option.isNone then fEmpty else 0
  let fl := (cFlags raw ||| r.2 ||| empty) % 65536
  (sealCrc { (setMask { raw with w2 := setField raw.w2 0 16 fl } (maskOfRows rows)) with
      payload := payloadOfRows (rowBytes ml g) fill.1 r.1 } 0, decide (fOrig ≤ r.2))

/-- The root's part of the digest: minus m times d(c), and minus m (R362). -/
def digestFinished (e : PlanEntry) (g : GroupDef) (c : Cord) (s : State) : State :=
  let m : BitVec 32 := BitVec.ofNat 32 (landersOf e (argNow s e) g (cIdx c))
  addDigest (eIdx e) (0 - m * cordDigest c) (0 - m) s

/-- The finishing stage completes a root cord: finished, folded into the digest, and broadcast (R14, R362). -/
def finish (e : PlanEntry) (g : GroupDef) (raw : Cord) (s : State) : State :=
  let r := finishedCord s e raw
  let s1 := digestFinished e g r.1 (if r.2 then originate e s else s)
  finishDown e g r.1 (raiseNf e (cFlags r.1) (addFlags (eIdx e) (cFlags r.1) s1))

/-- FINISH_CORD (R114). -/
def execFinishCord (i : Nat) (s : State) : Host.Outcome State Fault Refusal :=
  done s (match s.inbox[i]? with
    | some a => (match a.body with
        | .root raw =>
          let s0 := { s with inbox := dropAt s.inbox i }
          (match entryAt s (cPlan raw) with
            | some e => (match entryGroup s e with
                | some g => if running s && cStep raw == stepNo s then (if live s 58 then finish e g raw s0 else s) else s0
                | none => s0)
            | none => s0)
        | _ => s)
    | none => s)

/-! ### Descending cords (R94) -/

/-- The node that a descending cord reaches: the child that it names, one level below the hop. -/
def nodeBelow (s : State) (a : Arrival) (c : Cord) : NodeId :=
  match a.src with
  | .link l _ => nodeId (linkLevel s (linkNo l) - 1) (cTarget c)
  | .self k => nodeId (k - 1) (cTarget c)
  | _ => nodeId 0 (cTarget c)

/-- A finished cord at a node or die: checked, folded into the digest where the die lands it, and copied on; a second copy at a die is a
duplicate (R94, R150, R219, R362). -/
def descendNode (a : Arrival) (c : Cord) (e : PlanEntry) (s : State) : Option State :=
  let n := nodeBelow s a c
  if !crcOk c then
    some (raiseUnclean uLinkIntegrity (logEv 0x060B (kilnCode s (cIdx c)) (argPC (cPlan c) (cIdx c)) (cSource c) s))
  else match findNode s (cPlan c) n with
    | none => some (mismatch c s)
    | some x =>
      if !(x.admitted || x.claim == 0) || !live s (nodeDom s n (cIdx c)) then none
      else if !cordFits s e c || !descends s x (cIdx c) then some (mismatch c s)
      else if n.stage.val = 1 && s.kiln.landed.contains (landKey c) then some (duplicate c (landersHere s e (cIdx c)) s)
      else some (descendAt (cPlan c) n a.buf c s)

/-- A descending cord at a node, or a BARRIER at the leaves of a segment; a copy that a node of this instance takes is accepted for the node
above it (R191). -/
def descend (a : Arrival) (c : Cord) (e : PlanEntry) (s : State) : Option State :=
  match a.src with
  | .seg g => if live s (g + 1) then some (barrierAt e g s) else none
  | .self l => (descendNode a c e s).map (fun t =>
      if l = 0 ∨ 4 < l then t else copyAccepted (cPlan c) (nodeId l (coordAt l (cTarget c))) (cIdx c) (cTarget c) t)
  | _ => descendNode a c e s

/-- A descending cord of a kind that uses the tree. -/
def isDescending (a : Arrival) (c : Cord) : Bool := decide (cKind c ≤ 6) && a.vc == 1

/-- DESCENDING_CORD (R94). -/
def execDescendingCord (i : Nat) (s : State) : Host.Outcome State Fault Refusal := done s (receive i isDescending descend s)

/-! ### MIRROR acknowledgements and RESTORE (R111, R395) -/

/-- Remove the acknowledged cord of this die; without a match by tile the first of its plan and index (log 31). -/
def ackMirror (c : Cord) (s : State) : State :=
  let l := s.step.mirrorOut
  let l' := if l.contains (cPlan c, cIdx c, cTile c) then l.erase (cPlan c, cIdx c, cTile c)
    else match l.find? (fun x => x.1 == cPlan c && x.2.1 == cIdx c) with
      | some x => l.erase x
      | none => l
  { s with step := { s.step with mirrorOut := l' } }

/-- MIRROR_ACK (R111). -/
def execMirrorAck (i : Nat) (s : State) : Host.Outcome State Fault Refusal :=
  done s (receive i (fun a c => a.vc == 3 && isMirrorAck c) (fun _ c _ t => some (ackMirror c t)) s)

/-- The staging slot that the position's MIRROR trigger entry reads for cord `c`: the address of row 0 (R138, R395). -/
def mirrorStaging (s : State) (e : PlanEntry) (tile c : Nat) : Option Nat :=
  (leafSetOf s tile).bind (fun ls =>
    (ls.triggers.find? (fun w => trPlan w.1 == eIdx e && (w.1 != 0 || w.2 != 0))).map (fun w =>
      (stagingBase e ((ls.rings[trRing w.1]?).getD 0) c).1))

/-- Write a RESTORE cord into the stand-in tile's staging slot: rows only, no record, no permit (R395). -/
def restoreInto (c : Cord) (e : PlanEntry) (s : State) : State :=
  match physOf s (cTile c), mirrorStaging s e (cTile c) (cIdx c) with
  | some t, some base =>
    let rb := rowBytes (eMl e) (eFmt e)
    let beats := beatsOfRows base rb (rowPitch (eMl e) (eFmt e)) .restoreRow (chunks rb (cRows c) c.payload)
    setLeaf t (fun l => nextRecord { l with recQ := l.recQ ++
      [{ slot := 0, cord := some c, beats := beats, stalled := false, void := false }] }) s
  | _, _ => s

/-- A RESTORE cord that this stand-in expects (R395, R396); any other is discarded as stale. -/
def takeRestore (c : Cord) (s : State) : State :=
  match entryAt s (cPlan c) with
  | some e =>
    if s.faults.restoreDue.contains (cPlan c, cIdx c, cTile c) && decide (cRows c = rowsOfCord e (posNow s e) (cIdx c)) then
      restoreInto c e s
    else discard (cPlan c) (cIdx c) 3 unitPE s
  | none => discard (cPlan c) (cIdx c) 2 unitPE s

/-- RESTORE (R395). -/
def execRestore (i : Nat) (s : State) : Host.Outcome State Fault Refusal :=
  done s (match s.inbox[i]? with
    | some a => (match a.body with
        | .cord c => if a.vc = 3 ∧ cKind c = 10 then takeRestore c (withSome a.buf { s with inbox := dropAt s.inbox i } giveBuf) else s
        | _ => s)
    | none => s)

/-! ### Admission, notices and windows (R193, R196, R200) -/

/-- The allocator re-tests the head waiting entry (R196); what waited for its nodes is offered again. -/
def retest (s : State) : State :=
  let plans := s.kiln.waiting.map Prod.fst
  forEach plans (admitWaiting true plans.length s) flushPlan

/-- ADMISSION_RETEST (R196): in a fast cycle of the west half. -/
def execAdmissionRetest (s : State) : Host.Outcome State Fault Refusal :=
  done s (onlyIf (running s && clockRuns s false) s retest)

/-- Take a notice of the present attempt from the inbox; one of a coming attempt waits, another is dropped. -/
def takeNotice (i type : Nat) (f : Msg → State → State) (s : State) : State :=
  match s.inbox[i]? with
  | none => s
  | some a =>
    match a.body with
    | .mgmt m =>
      if mType m ≠ type ∨ (mDest m ≠ me s ∧ mDest m ≠ 0xFFFFFF) then s
      else
        let step := fieldOf m.m2 16 48
        let att := fieldOf m.m2 0 16
        let s0 := { s with inbox := dropAt s.inbox i }
        if step = stepNo s ∧ att = s.step.attempt.toNat then (if running s then f m s0 else s)
        else if stepNo s < step ∨ (step = stepNo s ∧ s.step.attempt.toNat < att) then s
        else s0
    | _ => s

/-- The node that a notice names. -/
def noticeNode (m : Msg) : NodeId := nodeId (fieldOf m.m1 48 4) (fieldOf m.m1 32 16)

/-- An admission notice is noted for its child and placement, and may complete the node's set (R200). -/
def admitNotice (m : Msg) (s : State) : State :=
  let plan := fieldOf m.m1 52 12
  let k := (fieldOf m.m1 16 16, mSrc m)
  sendNotices plan (modNode plan (noticeNode m) (fun x =>
    { x with notices := if x.notices.contains k then x.notices else x.notices ++ [k] }) s)

/-- ADMIT_NOTICE (R200). -/
def execAdmitNotice (i : Nat) (s : State) : Host.Outcome State Fault Refusal := done s (takeNotice i 3 admitNotice s)

/-- An arm notice goes on downward, or arms the leaves; a PASS source die arms its leaves at once (R200). -/
def armNotice (m : Msg) (s : State) : State :=
  let plan := fieldOf m.m1 52 12
  match entryAt s plan with
  | none => s
  | some e => if eKind e = 7 then armLeaves plan s else armDown plan (noticeNode m) s

/-- ARM_NOTICE (R200). -/
def execArmNotice (i : Nat) (s : State) : Host.Outcome State Fault Refusal := done s (takeNotice i 4 armNotice s)

/-- A WINDOW message: the parent's placement at the far end advertises its lowest open index; waiting offers go out (R193, R223). -/
def takeWindow (src : Src) (m : Msg) (s : State) : State :=
  let level := fieldOf m.m0 48 4
  let plan := fieldOf m.m0 36 12
  let inst := (relayFrom m).getD (srcInst s src)
  if fieldOf m.m1 16 48 ≠ stepNo s then s
  else
    flushPlan plan { s with kiln := { s.kiln with nodes := s.kiln.nodes.map (fun x =>
      if x.plan = plan ∧ x.node.stage.val = level then
        { x with parentLowest := smSet 0 x.parentLowest inst (fieldOf m.m0 0 16 + 1) } else x) } }

/-- WINDOW (R193). -/
def execWindow (i : Nat) (s : State) : Host.Outcome State Fault Refusal :=
  done s (match s.inbox[i]? with
    | some a => (match a.body with
        | .ctrl m => if mType m = 3 then takeWindow a.src m { s with inbox := dropAt s.inbox i } else s
        | _ => s)
    | none => s)

/-- The first 256-byte slice of a bank from position `pos` on that lies in a buffer in service: a buffer has 64 (R204). -/
def scrubFrom (s : State) (b pos : Nat) : Option Nat :=
  ((List.range 384).find? (fun i => decide (pos / 64 ≤ i) && !s.kiln.bufRetired.contains (384 * b + i))).map (fun i => max pos (64 * i))

/-- A scrub of the next 256-byte slice of a working bank (R204): the error words found in it are dealt with, and the last slice in service
ends a pass. -/
def scrub (b : Nat) (ecc : List EccHit) (s : State) : State :=
  match scrubFrom s b (smGet 0 s.kiln.scrubPos b) with
  | none => { s with kiln := { s.kiln with scrubPos := smSet 0 s.kiln.scrubPos b 0 } }
  | some p =>
    let s1 := eccHits (ecc.filter (fun h => h.buffer.val == 384 * b + p / 64 && h.word.val / 32 == p % 64)) s
    let next := scrubFrom s1 b (p + 1)
    let s2 := { s1 with kiln := { s1.kiln with scrubPos := smSet 0 s1.kiln.scrubPos b (next.getD 0) } }
    if next.isNone then ctrAdd (0x30410 + 0x40 * b) 1 s2 else s2

/-- SCRUB_READ (R204). -/
def execScrubRead (b : Fin 8) (ecc : List EccHit) (s : State) : Host.Outcome State Fault Refusal :=
  done s (if !s.kiln.bankWorking.getLsbD b.val then s
    else if live s (25 + b.val) then scrub b.val ecc s
    else onlyIf (clockRuns s (eastDom (25 + b.val))) s (demand (25 + b.val)))

end Sys2Proof.Machine
end

