-- ==== Sys2Proof/Machine/Seal.lean ====
section
/-! DEFINITION. Seal.lean: the seal group's tree, its contributions, early requests, decision, broadcast and effects, and the launch check
(chapters 06 and 13, R463). -/

namespace Sys2Proof.Machine

/-! ### SEAL cords in the tree (R359, R367, R463) -/

/-- The places that a row of a non-member feeder may take at its node: the sender's own, or, where the row came over a relay and its link
names another instance (R212), any place of the node. -/
def feederPlaces (s : State) (g : GroupDef) (a : Arrival) (l coord : Nat) : List Nat :=
  let fs := extraFeeders s g l coord
  match indexIn (srcInst s a.src) fs with
  | some j => [j]
  | none => List.range fs.length

/-- The node of the seal group that an upward SEAL cord reaches. -/
def sealNodeOf (s : State) (a : Arrival) (c : Cord) : Nat × Nat :=
  let l := match a.src with
    | .link k _ => linkLevel s (linkNo k)
    | .self k => k
    | _ => 0
  (l, coordAt l (cSource c))

/-- The key of an upward SEAL cord's operand at its node, beside the keys `held` there: the child's coordinate, or 65536 plus a place among
the non-member feeders of the node. A relayed row does not name its feeder, and takes the first place that no row holds: no lane
function depends on it (R463). -/
def sealKeyOf (s : State) (g : GroupDef) (a : Arrival) (c : Cord) (held : List Nat) : Nat :=
  let n := sealNodeOf s a c
  if decide (1 ≤ n.1) && decide (cLevel c = n.1) then
    let places := (feederPlaces s g a n.1 n.2).map (· + 65536)
    (places.find? (fun k => !held.contains k)).getD (places.headD 65536)
  else cSource c

/-- The operand keys of a node in order: its children, then its non-member feeders (R463); an L0 die node has the die's own row. -/
def sealKeys (s : State) (g : GroupDef) (l coord : Nat) : List Nat :=
  if l = 0 then [coord] else childrenOf g l coord ++ (List.range (extraFeeders s g l coord).length).map (· + 65536)

/-- One lane of a row combine: SEAL lanes for contributions, VOTE lanes for the launch check. -/
def rowLane (isSeal : Bool) (i : Nat) (a b : BitVec 32) : BitVec 32 :=
  BitVec.ofNat 32 (if isSeal then sealLane i a.toNat b.toNat else voteLane i a.toNat b.toNat)

/-- Two rows combined (R359, R181). -/
def rowOp (isSeal : Bool) (a b : Row) : Row := (List.zip a b).mapIdx (fun i p => rowLane isSeal i p.1 p.2)

/-- Rows combined in order; every lane function is exact, commutative and associative (R463). -/
def combineRowList (isSeal : Bool) (l : List Row) : Row :=
  match l with
  | [] => if isSeal then sealIdentity else voteIdentityRow
  | r :: rs => rs.foldl (rowOp isSeal) r

/-- The collection at a node for a cord index. -/
def sealCol (s : State) (n : NodeId) (idx : Nat) : SealCol :=
  match s.step.cols.find? (fun x => decide (x.node = n) && x.idx == idx) with
  | some x => x
  | none => { node := n, idx := idx, rows := [], bufs := [], sent := false }

/-- Record a collection. -/
def setSealCol (x : SealCol) (s : State) : State :=
  { s with step := { s.step with cols := s.step.cols.filter (fun y => !(decide (y.node = x.node) && y.idx == x.idx)) ++ [x] } }

/-- A node takes a row into its collection, in the buffer of the control reserve that the row has or in a new one (R190, R358). -/
def addRow (x : SealCol) (kept : Option Nat) (rows : List (Nat × Row)) (s : State) : State :=
  let b := kept.elim (pickBuf s x.idx) some
  withSome b (setSealCol { x with rows := rows, bufs := x.bufs ++ [b.getD noBuf] } s) (fun y t => takeBuf y .control t)

/-- A collection is combined: its buffers are free. -/
def closeCol (x : SealCol) (rows : List (Nat × Row)) (s : State) : State :=
  setSealCol { x with rows := rows, bufs := [], sent := true } (forEach x.bufs s giveBuf)

/-- The root of the seal group is this node. -/
def sealRootAt (g : GroupDef) (l coord : Nat) : Bool := decide (l = g.topLevel) && decide (coord = rootCoord g)

/-- This instance computes a SEAL cord index at a node of the seal group. -/
def sealComputes (s : State) (g : GroupDef) (l coord idx : Nat) : Bool := nodeSite s g l coord idx == some (me s)

/-- A row that waits here keeps, or takes, a buffer of the control reserve where that has one (R13, R190, R358). -/
def holdRow (i : Nat) (s : State) : State :=
  match s.inbox[i]? with
  | some a =>
    if 128 ≤ usedBut s .control (a.buf.getD noBuf) then s
    else match a.buf.elim (pickBuf s (bodyIdx a.body)) some with
      | some b => takeBuf b .control { s with inbox := s.inbox.set i { a with buf := some b } }
      | none => s
  | none => s

/-- A row that a node sends down holds a buffer of the control reserve until the last copy that crosses the rings, of those queued from item
`from_` on, is at its link (R190, R209). -/
def holdCopies (idx from_ : Nat) (s : State) : State :=
  match s.fabric.items.getLast?, (if 128 ≤ usedOf s .control then none else pickBuf s idx) with
  | some it, some b =>
    if from_ ≤ it.id then
      takeBuf b .control { s with fabric := { s.fabric with
        items := s.fabric.items.dropLast ++ [{ it with item := { it.item with buf := some b } }] } }
    else s
  | _, _ => s

/-- TARGET_MEMBER of the copy for a non-member that feeds at a node (R217, R463): the node's coordinate; over modules the logical die index
of a feeder that has one, since the coordinate of a package's node is also that of its die 0, and R212 relays by die. DEDUCED, log 91. -/
def feederTarget (s : State) (l coord inst : Nat) : Nat := if l = 1 then (dieOfInst s inst).getD coord else coord

/-- Copy a descending SEAL cord from a node to all its children and to the non-members that feed there (R367, R94); the plan engine sends it
through the finishing stage's stop (R10). -/
def copySeal (g : GroupDef) (l coord : Nat) (c : Cord) (s : State) : State :=
  if l = 0 then s
  else holdCopies (cIdx c) s.fabric.nextId <|
    let s1 := forEach (childrenOf g l coord) s (fun k t =>
      match (if l = 1 then some (holderOf t k) else siteOf t.kiln.places g.num (l - 1) k (cIdx c)) with
      | none => t
      | some inst =>
        let cord := retarget c k
        if inst = me t then deliver { src := .self l, vc := 1, body := .cord cord } t
        else sendInst unitFS inst l 1 cord false t)
    forEach ((extraFeeders s g l coord).filter (· != me s)) s1 (fun i t => sendInst unitFS i l 1 (retarget c (feederTarget t l coord i)) false t)

/-- The node that a descending SEAL cord reaches here: the child it names one level below the hop, or, at an instance that feeds at the
node of the hop itself, that node (R463). -/
def sealBelow (s : State) (g : GroupDef) (a : Arrival) (c : Cord) : Nat × Nat :=
  let l := match a.src with
    | .link k _ => linkLevel s (linkNo k)
    | .self k => k
    | _ => 1
  let own := feedNode s g (me s) = some (l, cTarget c) ∨
    (l = 1 ∧ myDie s = some (cTarget c) ∧ feedNode s g (me s) = some (1, coordAt 1 (cTarget c)))
  if own then (l, coordAt l (cTarget c)) else (l - 1, cTarget c)

/-! ### The launch check (R181) -/

/-- The eight words of Table: Launch-check words. -/
def checkWords (s : State) : List (BitVec 32) :=
  let n := stepNo s
  let lo := s.step.seedLo.toNat
  let hi := s.step.seedHi.toNat
  let im := s.image
  [BitVec.ofNat 32 n,
   BitVec.ofNat 32 (n / 2 ^ 32 % 65536 * 65536 + epochOf s (sealGroup s) % 65536),
   BitVec.ofNat 32 lo, BitVec.ofNat 32 (lo / 2 ^ 32), BitVec.ofNat 32 hi, BitVec.ofNat 32 (hi / 2 ^ 32),
   match im with
    | some i => crc32c i.planHdr
    | none => 0,
   match im with
    | some i => BitVec.ofNat 32 (i.formatVersion.toNat * 65536 + i.microcode.toNat)
    | none => 0]

/-- The row of the launch check: word i at MIN element 16 + i and at MAX element 24 + i; the rest are identities. -/
def checkRow (s : State) : Row :=
  let w := checkWords s
  voteIdentityRow.mapIdx (fun i v => if i < 16 then v else (w[i % 8]?).getD 0)

/-- The words that disagree in a combined row, as a mask (R181, event 0x0304). -/
def checkBad (r : Row) : Nat :=
  (List.range 8).foldl (fun m i => if (r[16 + i]?).getD 0 = (r[24 + i]?).getD 0 then m else m + 2 ^ i) 0

/-! ### Removing an index from its groups (R50, R399, R400) -/

/-- The groups in force that hold a logical die index, by number. -/
def groupsHolding (s : State) (d : Nat) : List GroupDef := s.kiln.groups.filter (fun g => (memberIdx g d).isSome)

/-- The MIRROR entries of a die: those of groups that hold it, with the twin a member (R110). -/
def mirrorsOf (s : State) (d : Nat) : List PlanEntry :=
  (planEntries s).filter (fun e => eType e == 0 && eKind e == 8 && match entryGroup s e with
    | some g => (memberIdx g d).isSome && (memberIdx g (d ^^^ eArg e)).isSome
    | none => false)

/-- A group without a die; its top level and root node stay (R399). -/
def dropMember (d : Nat) (g : GroupDef) : GroupDef := { g with members := g.members.filter (fun m => m.1 != d) }

/-- The MIRROR entries that leave this die without its mirror when index `d` goes. -/
def mirrorsLost (s : State) (d : Nat) : List PlanEntry :=
  (mirrorsOf s d).filter (fun e => myDie s == some (d ^^^ eArg e))

/-- The index leaves every member list; the trees, epochs and bit domains follow: a node left without a member is gone, with its placement
record (R39, R50, R399). -/
def removeIndex (d : Nat) (s : State) : State :=
  let gs := groupsHolding s d
  let w := putField 62 2 2 ||| putField 38 24 (holderOf s d)
  { s with
    kiln := { s.kiln with
      groups := s.kiln.groups.map (dropMember d),
      places := s.kiln.places.filter (fun p => !gs.any (fun g => g.num == p.group) ||
        gs.any (fun g => g.num == p.group && (nodesAt (dropMember d g) p.level).contains p.coord)),
      removed := s.kiln.removed ++ gs.filterMap (fun g => (memberIdx g d).map (fun j => (g.num, j))) },
    tables := { s.tables with
      members := smSet memberInit s.tables.members d w, built := smSet memberInit s.tables.built d w,
      domains := gs.foldl (fun m g => let p := smGet (0, 0) m g.num; smSet (0, 0) m g.num (p.1 + 1, s.step.number)) s.tables.domains },
    faults := { s.faults with myDie := if s.faults.myDie = some d then none else s.faults.myDie } }

/-- A RE-FORM without an index: the index goes, its offers and RESTORE end, and the new bit domains and what lost its mirror are logged (R50,
R399). -/
def reformIndex (d : Nat) (s : State) : State :=
  let gs := groupsHolding s d
  let lost := mirrorsLost s d
  let own := (myDie s).getD 0
  let s1 := removeIndex d s
  let s2 := logEv 0x0805 unitPE d gs.length { s1 with faults := { s1.faults with
    offers := s1.faults.offers.filter (fun o => o.die != d), restoring := s1.faults.restoring.filter (· != d) } }
  let s3 := forEach gs s2 (fun g t => logEv 0x0305 unitPE g.num (g.members.length - 1) t)
  forEach lost s3 (fun e t => logEv 0x0806 unitPE own (eIdx e) t)

/-- The indexes that the restored membership record marks REMOVED and the built tree still holds, ascending (R400). -/
def restoredRemoved (s : State) : List Nat :=
  (s.tables.built.filter (fun p => decide (fieldOf p.2 62 2 ≠ 2) && decide (fieldOf (memberWord s p.1) 62 2 = 2))).map Prod.fst

/-- Before its launch a resumed run has the RE-FORM of each such index applied (R400); the epochs are those that the host restored. -/
def resumeReforms (s : State) : State := forEach (restoredRemoved s) s reformIndex

/-- A restored membership record that names another instance than the built tree at a logical die index (R376). -/
def recordMismatch (s : State) : Option Nat :=
  (s.tables.built.find? (fun p => memberWord s p.1 != p.2)).map Prod.fst

/-- An instance feeds the launch check for a launch tick (R181, R293), after the RE-FORMs that its restored record marks (R400): not while it
holds a recovery hold (R384), while its epochs need restoring (R382), or while its restored membership record does not match the tree (R376). -/
def feedCheck (s : State) : State :=
  if !isReady s || s.faults.epochBad || ownsHold s then s
  else
    let s1 := resumeReforms s
    match recordMismatch s1 with
    | some d => logEv 0x080F unitPE 4 d s1
    | none => feedSeal 2 (checkRow s1) { s1 with step := { s1.step with checkFed := true } }

/-- An instance that is IDLE and SYS_LOCKED takes a launch tick and its generation and feeds the check (R293). -/
def takeLaunch (tick : Word) (gen : BitVec 16) (s : State) : State :=
  feedCheck { s with time := { s.time with launchTick := tick, launchGen := gen, launchPending := true },
                     step := { s.step with launch := tick } }

/-- Take a SEAL cord of an index and direction from the inbox. -/
def takeSeal (i idx vc : Nat) (f : Arrival → Cord → GroupDef → State → State) (s : State) : State :=
  match s.inbox[i]? with
  | none => s
  | some a =>
    match a.body with
    | .cord c =>
      if cKind c ≠ 9 ∨ cIdx c ≠ idx ∨ a.vc ≠ vc then s
      else
        let s0 := withSome a.buf { s with inbox := dropAt s.inbox i } giveBuf
        if !isReady s then discard 0 idx 5 unitPE s0
        else match groupNow s (sealGroup s) with
          | none => discard 0 idx 1 unitPE s0
          | some g => f a c g s0
    | _ => s

/-- A row joins its node's collection at the kiln unit of its index (R12, R16); once every operand is there the node sends the combined row on, or
as root broadcasts it. -/
def checkAtNode (a : Arrival) (c : Cord) (g : GroupDef) (s : State) : State :=
  let n := sealNodeOf s a c
  let l := n.1
  let coord := n.2
  let keys := sealKeys s g l coord
  let col := sealCol s (nodeId l coord) 2
  let key := sealKeyOf s g a c (col.rows.map Prod.fst)
  if !sealComputes s g l coord 2 || !keys.contains key || col.rows.any (fun r => r.1 == key) then discard 0 2 1 unitPE s
  else
    let rows := col.rows ++ [(key, rowOfBytes c.payload)]
    if keys.all (fun k => rows.any (fun r => r.1 == k)) then
      let r := combineRowList false (keys.filterMap (fun k => (rows.find? (fun x => x.1 == k)).map Prod.snd))
      let s1 := closeCol col [] s
      let unit := kilnCode s 2
      if sealRootAt g l coord then
        toStops unit [unitFS] 1 { src := .self (l + 1), vc := 1, body := .cord (mkSealCord s 2 l coord coord r) } [] s1
      else sealTo unit g (l + 1) (coordAt (l + 1) coord) 2 l coord r s1
    else addRow col a.buf rows s

/-- LAUNCH_CHECK (R181). -/
def execLaunchCheck (i : Nat) (s : State) : Host.Outcome State Fault Refusal := done s (takeSeal i 2 0 checkAtNode s)

/-- A stand-in that waited takes its part (R396). -/
def takePart (s : State) : State :=
  { s with faults := { s.faults with role := if s.faults.role = .restoring then .holds else s.faults.role } }

/-- The result of the launch check at its instance (R181): ARMED on a pass, with the timers' history cleared (R330); on a fail the
instance stays IDLE, logs the words that disagree and raises the fault attention line. -/
def checkResult (r : Row) (s : State) : State :=
  if s.step.state ≠ .idle ∨ !s.time.launchPending ∨ !s.step.checkFed then s
  else
    let s0 := forEach (s.step.cols.filter (fun x => x.idx == 2)) s (fun x t => forEach x.bufs t giveBuf)
    let s1 := { s0 with step := { s0.step with checkFed := false, cols := s0.step.cols.filter (fun x => x.idx != 2) } }
    if checkBad r = 0 then
      let s2 := { s1 with kindle := { s1.kindle with durations := [], skews := [] }, step := { s1.step with firstOut := true } }
      takePart (enterArmed s2.step.launch s2)
    else otherSeen (logEv 0x0304 unitPE (checkBad r) 0 { s1 with time := { s1.time with launchPending := false } })

/-- The combined row on its way down: copied on, and acted on at the node where this instance feeds (R463). -/
def checkDown (a : Arrival) (c : Cord) (g : GroupDef) (s : State) : State :=
  let n := sealBelow s g a c
  let s1 := if sealComputes s g n.1 n.2 2 then copySeal g n.1 n.2 c s else s
  if feedNode s g (me s) = some n then checkResult (rowOfBytes c.payload) s1 else s1

/-- LAUNCH_CHECK_RESULT (R181). -/
def execLaunchCheckResult (i : Nat) (s : State) : Host.Outcome State Fault Refusal := done s (takeSeal i 2 1 checkDown s)

/-! ### Decision and broadcast (R365 to R367, R384) -/

/-- An element of a row. -/
def lane (r : Row) (i : Nat) : BitVec 32 := (r[i]?).getD 0

/-- The reasons that the root itself raises (R364 bits 12 to 14): they are of a combined row, never of an early request. -/
def rootReasons (r : Row) (early : Bool) : BitVec 32 :=
  if early then 0
  else (if lane r 17 = lane r 20 then 0 else uAttempt) ||| (if lane r 24 = 0 then 0 else uDigest) |||
    (if lane r 25 = 0 then 0 else uCount)

/-- The outcome of R366: 0 SEALED, 1 SKIP, 2 REPLAY, 3 HALT. -/
def outcomeOf (r : Row) (early : Bool) (attempt : Nat) : Nat :=
  let control := lane r 10
  if control.getLsbD 2 then 3
  else if lane r 8 ||| rootReasons r early ≠ 0 then (if attempt < 7 then 2 else 3)
  else if control.getLsbD 1 then 3
  else if control.getLsbD 0 then 1
  else 0

/-- The row of Table: Seal broadcast, issued at the present tick (R179, R367); STOP also for step 0xFFFF_FFFF_FFFE (R174). -/
def broadcastRow (s : State) (r : Row) (early : Bool) : Row :=
  let o := outcomeOf r early s.step.attempt.toNat
  let stop := (lane r 10).getLsbD 3 || (decide (o ≤ 1) && decide (stepNo s = 0xFFFFFFFFFFFE))
  let next : Nat := if o = 3 then 0 else s.time.tick.toNat + (if o = 2 then replayGap s else launchGap s)
  (List.range 32).map (fun i =>
    if i = 0 then BitVec.ofNat 32 (o * 2 ^ 28) ||| bit32 27 stop ||| bit32 26 ((lane r 10).getLsbD 4)
    else if i = 1 then BitVec.ofNat 32 next
    else if i = 2 then BitVec.ofNat 32 (next / 2 ^ 32)
    else if i = 3 then BitVec.ofNat 32 (stepNo s)
    else if i = 4 then BitVec.ofNat 32 (stepNo s / 2 ^ 32)
    else if i = 5 then s.step.attempt.setWidth 32
    else if i = 6 then lane r 8 ||| rootReasons r early
    else if i = 7 then lane r 9 &&& 0xFFFF
    else if i = 8 then lane r 10
    else if i = 9 then lane r 16
    else if i = 10 then lane r 24
    else if i = 11 then lane r 25
    else 0)

/-- A decision that recovery holds keep back waits in a buffer of the control reserve, under CORD_INDEX 1 of the root node, until it is
broadcast (R190, R384). -/
def holdDecision (g : GroupDef) (s : State) : State :=
  let x := sealCol s (nodeId g.topLevel (rootCoord g)) 1
  if x.bufs.isEmpty then addRow x none [] s else s

/-- The root issues the broadcast that it has decided, unless a recovery hold is open (R367, R384). -/
def issueBroadcast (s : State) : State :=
  match s.step.decided, groupNow s (sealGroup s) with
  | some (r, early), some g =>
    if s.step.broadcast then s
    else if !s.faults.holds.isEmpty then holdDecision g s
    else
      let c := mkSealCord s 0 g.topLevel (rootCoord g) (rootCoord g) (broadcastRow s r early)
      let s1 := closeCol (sealCol s (nodeId g.topLevel (rootCoord g)) 1) [] s
      deliver { src := .self (g.topLevel + 1), vc := 1, body := .cord c } { s1 with step := { s1.step with broadcast := true } }
  | _, _ => s

/-- The root decides on a row (R365, R366): the first row decides; a later early request before the broadcast has its UNCLEAN and CONTROL
bits ORed in. -/
def decide_ (r : Row) (early : Bool) (s : State) : State :=
  match s.step.decided with
  | none => issueBroadcast { s with step := { s.step with decided := some (r, early) } }
  | some (r0, e0) =>
    if early && !s.step.broadcast then
      issueBroadcast { s with step := { s.step with
        decided := some (r0.mapIdx (fun i v => if i = 8 ∨ i = 10 then v ||| lane r i else v), e0) } }
    else s

/-- What a contribution or early request of an instance must agree with: 0 it is of the present attempt, 1 it came before this instance
opens, 2 it is stale (R377), 3 its epoch is old. -/
def sealMatch (s : State) (c : Cord) : Nat :=
  let att := lane (rowOfBytes c.payload) 17
  if s.step.state = .halted then 2
  else if cStep c = stepNo s + 1 then 1
  else if cStep c ≠ stepNo s then 2
  else if att = s.step.attempt.setWidth 32 then
    (if cEpoch c ≠ epochOf s (sealGroup s) then 3 else if running s then 0 else 1)
  else if s.step.attempt.setWidth 32 < att then 1
  else 2

/-- A contribution or early request `a` at inbox place `i` by `sealMatch`: one that comes before this instance opens waits in the control
reserve, and one that ECC has spoiled meanwhile makes the attempt unclean as it is taken (R203). -/
def sealGate (i : Nat) (a : Arrival) (c : Cord) (before after : State) (f : State → State) : State :=
  match sealMatch before c with
  | 0 => onlyIf a.bad (f after) (raiseUnclean uEcc)
  | 1 => holdRow i before
  | 2 => discard 0 (cIdx c) 3 unitPE after
  | _ => discard 0 (cIdx c) 4 unitPE after

/-- A contribution joins its node's collection at the kiln unit of its index (R12, R16, R359). Complete, it goes on as the node's output; at
the root it crosses the rings to the finishing stage's stop, where the plan engine takes it and decides (R10). -/
def contributionAt (a : Arrival) (c : Cord) (g : GroupDef) (s : State) : State :=
  let n := sealNodeOf s a c
  let l := n.1
  let coord := n.2
  let keys := sealKeys s g l coord
  let col := sealCol s (nodeId l coord) 0
  let key := sealKeyOf s g a c (col.rows.map Prod.fst)
  if a.src = .self (g.topLevel + 1) then decide_ (rowOfBytes c.payload) false s
  else if !sealComputes s g l coord 0 || !keys.contains key || col.sent || col.rows.any (fun r => r.1 == key) then discard 0 0 1 unitPE s
  else
    let rows := col.rows ++ [(key, rowOfBytes c.payload)]
    if keys.all (fun k => rows.any (fun r => r.1 == k)) then
      let r := combineRowList true (keys.filterMap (fun k => (rows.find? (fun x => x.1 == k)).map Prod.snd))
      let s1 := closeCol col rows s
      if sealRootAt g l coord then
        toStops (kilnCode s 0) [unitFS] 0 { src := .self (l + 1), vc := 0, body := .cord (mkSealCord s 0 l coord coord r) } [] s1
      else sealTo (kilnCode s 0) g (l + 1) (coordAt (l + 1) coord) 0 l coord r s1
    else addRow col a.buf rows s

/-- SEAL_CONTRIBUTION (R359). -/
def execSealContribution (i : Nat) (s : State) : Host.Outcome State Fault Refusal :=
  done s (takeSeal i 0 0 (fun a c g t => sealGate i a c s t (contributionAt a c g)) s)

/-- An early request goes upward uncombined, ahead of the pending contribution, over the finishing stage's stop (R10); the root decides on
it (R365). -/
def earlyAt (a : Arrival) (c : Cord) (g : GroupDef) (s : State) : State :=
  let n := sealNodeOf s a c
  let l := n.1
  let coord := n.2
  if !sealComputes s g l coord 1 || !(sealKeys s g l coord).contains (sealKeyOf s g a c []) then discard 0 1 1 unitPE s
  else if sealRootAt g l coord then
    (if s.step.broadcast then discard 0 1 3 unitPE s else decide_ (rowOfBytes c.payload) true s)
  else sealTo unitFS g (l + 1) (coordAt (l + 1) coord) 1 l coord (rowOfBytes c.payload) s

/-- EARLY_REQUEST (R365). -/
def execEarlyRequest (i : Nat) (s : State) : Host.Outcome State Fault Refusal :=
  done s (takeSeal i 1 0 (fun a c g t => sealGate i a c s t (earlyAt a c g)) s)

/-! ### Effects of the outcome (R182, R206, R368, R369) -/

/-- The seal record of a leaf (Table: Seal record). -/
def sealRecord (s : State) (r : Row) : WriteCtx :=
  let stop := (lane r 0).getLsbD 27
  { slot := 0, cord := none, stalled := false, void := false,
    beats := [fullBeat (stepRecAddr s + 64) .sealRec
      [stepContext s,
       putField 60 4 ((lane r 0).toNat / 2 ^ 28) ||| bitAt 59 stop ||| putField 0 16 (lane r 7).toNat,
       putField 32 32 (lane r 6).toNat ||| putField 0 32 (lane r 9).toNat,
       putField 32 32 (lane r 2).toNat ||| putField 0 32 (lane r 1).toNat, 0, 0, 0, 0]] }

/-- Close the open tally records with a status (R407). -/
def tallyEnd (st : BitVec 4) (tick : Word) (l : Leaf) : Leaf :=
  { l with tally := l.tally.map (fun t => if t.status = 1 then { t with status := st, lastTick := tick } else t) }

/-- What the leaf does at the broadcast (R135, R369): its entries disarm; with STEP_REC_EN it writes the seal record, whether or not its half
has opened, and LI_STEP_OPEN falls after the record's bump; else LI_STEP_OPEN falls. -/
def leafSealed (s : State) (r : Row) (l : Leaf) : Leaf :=
  let l1 := disarmLeaf l
  if stepRecEn s then nextRecord { l1 with sealing := l1.stepOpen, recQ := l1.recQ ++ [sealRecord s r] }
  else { l1 with stepOpen := false }

/-- The leaves that take a broadcast: those of the logical positions of both halves, and one that is still open. -/
def sealedTiles (s : State) : List Nat :=
  (positionsOf s false ++ positionsOf s true).map Prod.snd ++
    (s.leaves.filter (fun p => p.2.stepOpen)).map Prod.fst

/-- A leaf drops what it holds of an abandoned attempt (R182): landings not begun or not recorded, and held cords. The beat
that a landing requests is held until its grant (R126). -/
def leafAbandon (st : BitVec 4) (tick : Word) (l : Leaf) : Leaf :=
  let w := match l.writing with
    | some x =>
      if x.cord.isSome && x.beats.any (fun b => b.kind != .restoreRow) then some { x with beats := x.beats.take 1, void := true } else some x
    | none => none
  tallyEnd st tick { l with landQ := [], held := [], writing := w }

/-- A cord of the step that is not of the SEAL or RESTORE kind. -/
def ofStep (step : Nat) (c : Cord) : Bool := decide (cStep c = step) && decide (cKind c ≤ 8)

/-- A held unit carries a cord of the step ahead of every drain marker of its channel. -/
def heldStepCord (n : Nat) (f : Flow) (h : HallHeld) : Bool :=
  h.type == 0 && (match h.frag0 with
    | some b => ofStep n (cordOfBytes b)
    | none => false) &&
  !f.heldUnits.any (fun d => d.type == 2 && d.vc == h.vc && decide ((d.seq - h.seq).toNat ≥ 2 ^ 31))

/-- What is left of a cord of an abandoned attempt that has its SEQ in a hall flow: the flow still owes its peer the unit (R239), and the header
alone, with no rows and its CRC recomputed, fills it (log 9). -/
def emptied (c : Cord) (seq : BitVec 32) : List (List Byte) :=
  fragsOf (sealCrc { c with payload := [], w2 := setField c.w2 16 16 0 } seq.toNat)

/-- A sent unit of the abandoned attempt is given up: its cord and its buffer go, and what is still sent of it is empty. -/
def emptyUnit (n : Nat) (u : HallUnit) : HallUnit :=
  match u.cord with
  | some c => if ofStep n c then { u with cord := none, buf := noBuf, bodies := emptied c u.seq } else u
  | none => u

/-- A held unit of the abandoned attempt is void: its buffer goes, and its place in the order stays. -/
def voidHeld (n : Nat) (f : Flow) (h : HallHeld) : HallHeld :=
  if heldStepCord n f h then { h with void := true, buf := noBuf, frag0 := h.frag0.map (fun _ => []), frag1 := h.frag1.map (fun _ => []) } else h

/-- Hall state at an abandonment (R182): the cords of the step in retransmit and reorder state are discarded, and their numbers stay. -/
def dropFlow (n : Nat) (f : Flow) : Flow :=
  { f with units := f.units.map (emptyUnit n), heldUnits := f.heldUnits.map (voidHeld n f) }

/-- The buffers that `dropFlow` gives up. -/
def droppedBufs (n : Nat) (f : Flow) : List Nat :=
  (f.units.filter (fun u => u.cord.any (ofStep n))).map (fun u => u.buf) ++ (f.heldUnits.filter (heldStepCord n f)).map (fun h => h.buf)

/-- An item that an abandonment leaves: a message, a cord of another step or one that only crosses this die, or one of the relaunched attempt,
whose channel is drained. -/
def outlives (s : State) (a : Arrival) : Bool :=
  match a.body with
  | .cord c => a.relay || !ofStep (stepNo s) c || onChannel s s.step.drained a
  | .root _ => false
  | _ => true

/-- A ring item that an abandonment leaves; what this instance itself sends is of the abandoned attempt. -/
def itemOutlives (s : State) (it : RingItem) : Bool :=
  match it.item.body with
  | .cord c => it.item.relay || !ofStep (stepNo s) c || (incoming it && onChannel s s.step.drained it.item)
  | .root _ => false
  | _ => true

/-- Ring items that are not kept: one with flits on a ring is delivered and discarded at its destination (R273), another is gone. A
reservation of its stop stays (R266 is silent there): its slot is kept from other stops until the stop injects again. DESIGN CHOICE, log 77. -/
def dropRing (keep : RingItem → Bool) (s : State) : State :=
  let gone := s.fabric.items.filter (fun it => !keep it)
  let s1 := forEach gone s (fun it t => withSome it.item.buf t giveBuf)
  { s1 with fabric := { s1.fabric with
      items := (s.fabric.items.filter (fun it => keep it || decide (it.arrived < it.sent.length))).map (fun it =>
        if keep it then it else { it with void := true, item := { it.item with buf := none } }) } }

/-- A REORDER that holds a cord of the step ends: on an Ethernet port its unit goes on, emptied (R182, R251). -/
def dropReorder (n k : Nat) (s : State) : State :=
  match (injAt s k).reorder with
  | some w => if !ofStep n w.cord then s
      else if isEth s k then releaseReorder k s
      else setInj k (fun u => { u with reorder := none }) s
  | none => s

/-- What a link drops of the step's cords. -/
def dropLink (n : Nat) (l : LinkSt) : LinkSt :=
  { l with
    chans := l.chans.map (fun ch => { ch with
      queue := (ch.queue.filter (fun q => decide (0 < q.sent) || !ofStep n q.cord || q.mark.isSome || q.relay)).map (fun q =>
        { q with void := q.void || (ofStep n q.cord && !q.relay) }) }),
    unacked := l.unacked.filter (fun u => !ofStep n u.cord),
    halves := l.halves.filter (fun h => !ofStep n h.2),
    flows := l.flows.map (fun q => (q.1, dropFlow n q.2)) }

/-- Drop the step's cords from the arrival reserve, the inbox, the rings, the link channels and what waits for a link, but for those of a
channel already drained (R182, R202); flits that are on a ring are delivered and discarded at their destination stops (R273). -/
def dropStepCords (before : State) : State :=
  let n := stepNo before
  let s1 := forEach (List.range 24) (dropRing (itemOutlives before) (dropInbox (outlives before) (freeEarly (outlives before) before)))
    (fun k t => dropReorder n k t)
  let s2 := forEach (s1.links.flatMap (fun p => p.2.flows.flatMap (fun q => droppedBufs n q.2))) s1 giveBuf
  { s2 with
    fabric := { s2.fabric with parked := s2.fabric.parked.filter (fun p => match p.body with
      | .cord c => !ofStep n c
      | _ => true) },
    links := s2.links.map (fun p => (p.1, dropLink n p.2)) }

/-- The links in use with their flows: (link, flow, key of its channels in the drain lists). -/
def drainLinks (s : State) : List (Nat × Nat × Nat) :=
  (List.range 24).flatMap (fun k =>
    if !linkUp s k || (linkAt s k).role == 1 then []
    else if isEth s k then
      (match effPort s k with
        | some c => (List.range c.peers.length).filterMap (fun f => if (flowAt s k f).state = 2 then some (k, f, 1000 + 64 * k + f) else none)
        | none => [])
    else [(k, 0, k)]) ++
  (List.range 6).flatMap (fun u => (relayedBy s (peerOf s (18 + u) 0)).filterMap (fun i =>
    if (linkSet s i 1).head? == some (18 + u, 0) then some (18 + u, 0, relayKey i) else none))

/-- A drain marker (R223, R250). -/
def mkDrain (s : State) (vc : Nat) : Msg :=
  { msgZero with m0 := putField 56 8 2 ||| putField 53 3 vc ||| putField 0 48 (stepNo s), m1 := putField 0 16 s.step.attempt.toNat }

/-- Steps 1 to 3 of R182: triggers disarm, the step's cords are discarded, and a drain marker goes out on every channel of every link in
use; what still arrives before a channel's marker is to be discarded. -/
def abandon (st : BitVec 4) (s : State) : State :=
  let s1 := disarmAll s
  let s2 := freeKiln (dropStepCords s1)
  let s3 := { s2 with
    leaves := s2.leaves.map (fun p => (p.1, leafAbandon st s.time.tick p.2)),
    step := { s2.step with mirrorOut := [], draining :=
      ((drainLinks s).flatMap (fun d => (List.range 5).map (fun v => (d.2.2, v)))).filter (fun p => !s.step.drained.contains p) } }
  forEach (drainLinks s) s3 (fun d t => forEach (List.range 5) t (fun v u =>
    msgOn true d.1 d.2.1 (if relayKey 0 ≤ d.2.2 then relayStamp s (d.2.2 - relayKey 0) (mkDrain s v) else mkDrain s v) u))

/-- Retirements due at the step boundary (R86, R205, R206, R401): held cords of the arrival and hall
reserves move out of a bank before it goes. -/
def moveEarly (b : Nat) (s : State) : State :=
  let gone := fun (t : State) => { t with kiln := { t.kiln with bankWorking := t.kiln.bankWorking &&& ~~~(BitVec.ofNat 8 (2 ^ b)) } }
  forEach (s.kiln.used.filter (fun p => (p.2 = .hall || p.2 = .arrival) && p.1 / 384 == b)) s (fun p t =>
    let u := giveBuf p.1 t
    match pickBuf (gone u) (bufIdx t p.1) with
    | some y => takeBuf y p.2 (moveBuf p.1 y u)
    | none => moveBuf p.1 noBuf u)

/-- The step boundary (R206): banks and units that are due are retired, and those found after the contribution become due at the next. -/
def boundary (s : State) : State :=
  let s1 := forEach s.kiln.bankDue s (fun p t => retireBank p.1 p.2 (moveEarly p.1 t))
  let due := (List.range 8).filter (fun k => s.kiln.unitDue.getLsbD k && s1.kiln.unitWorking.getLsbD k)
  let s2 := forEach due s1 (fun k t => retireUnit k { t with kiln := { t.kiln with
    unitPredicted := t.kiln.unitPredicted ||| BitVec.ofNat 8 (2 ^ k) } })
  { s2 with kiln := { s2.kiln with unitDue := 0, bankUe := [], bankDue := s2.kiln.bankDueNext, bankDueNext := [] } }

/-- The history of the skew and smoulder timers takes the attempt that reached its broadcast: 16 values each (R330, R402, R404). -/
def noteHistory (s : State) : State :=
  let dur := s.time.tick.toNat - s.step.launch.toNat
  let level := fun (x : NodeInst) => x.node.stage.val - 1
  let worst := fun (l : Nat) => ((s.kiln.nodes.filter (fun x => level x == l)).map (fun x => x.maxSkew)).foldl max 0
  let has := fun (l : Nat) => s.kiln.nodes.any (fun x => level x == l)
  let push := fun (q : List Nat) (v : Nat) => (q ++ [v]).drop (q.length + 1 - 16)
  { s with
    kindle := { s.kindle with
      durations := push s.kindle.durations dur,
      skews := (List.range 5).foldl (fun m l => if has l then smSet [] m l (push (smGet [] m l) (worst l)) else m) s.kindle.skews },
    time := { s.time with lastDuration := satOf 32 dur, exceptions := satOf 16 s.time.exceptionsNow, exceptionsNow := 0 } }

/-- The registers of a received broadcast (Table: step and seal registers). -/
def noteBroadcast (r : Row) (s : State) : State :=
  let o := (lane r 0).toNat / 2 ^ 28
  { s with step := { s.step with
      lastOutcome := BitVec.ofNat 4 o,
      lastFlags := BitVec.ofNat 16 (lane r 7).toNat,
      lastUnclean := lane r 6,
      lastFirstNf := lane r 9,
      lastDigest := putField 32 32 (lane r 10).toNat ||| putField 0 32 (lane r 11).toNat,
      replayRun := if o = 2 then satAdd s.step.replayRun 1 else 0,
      seen := s.step.seen ||| (if o = 1 then 1 else if o = 2 then 2 else if o = 3 then 4 else 0),
      nSealed := if o = 0 then satAdd s.step.nSealed 1 else s.step.nSealed,
      nSkipped := if o = 1 then satAdd s.step.nSkipped 1 else s.step.nSkipped,
      nReplayed := if o = 2 then satAdd s.step.nReplayed 1 else s.step.nReplayed,
      bcastShort := (lane r 0).getLsbD 26 } }

/-- KX4 logs every outcome other than SEALED (R368). -/
def logOutcome (r : Row) (s : State) : State :=
  match (lane r 0).toNat / 2 ^ 28 with
  | 1 => logEv 0x0301 unitPE (lane r 6).toNat (lane r 9).toNat s
  | 2 => logEv 0x0302 unitPE (lane r 6).toNat (lane r 8).toNat s
  | 3 => logEv 0x0303 unitPE (lane r 6).toNat (lane r 8).toNat s
  | _ => s

/-- NEXT_LAUNCH of a broadcast. -/
def nextLaunch (r : Row) : Word := putField 32 32 (lane r 2).toNat ||| putField 0 32 (lane r 1).toNat

/-- The instance enters IDLE at a stop (R179, R374): a bank that waited is acted on there (R351). -/
def enterIdle (s : State) : State :=
  bankIfPending { s with step := { s.step with state := .idle, stopPending := false, firstOut := true },
                         time := { s.time with launchPending := false } }

/-- What belongs to one attempt is cleared, with the buffers of its seal rows; reasons found since in ARMED stay for its open. -/
def clearAttempt (before : State) : State :=
  let s := forEach (before.step.cols.filter (fun x => x.idx != 2)) before (fun x t => forEach x.bufs t giveBuf)
  { s with
    step := { s.step with openW := false, openE := false, drained := [], unclean := 0, exhaustHalt := false, contributed := false, earlySent := false,
                          mirrorOut := [], cols := s.step.cols.filter (fun x => x.idx == 2), decided := none, shortSent := false,
                              broadcast := false, short := false },
    faults := { s.faults with warned := [], progress := [], reports := [], collecting := none },
    power := { s.power with holds := holdsLeft s, preheats := [] } }

/-- SEALED or SKIP: the step number advances; the instance arms for the next launch, or enters IDLE on STOP or at the last step number
(R174, R179). -/
def sealedStep (r : Row) (s : State) : State :=
  let n := s.step.number + 1
  let s1 := clearAttempt (freeKiln { s with step := { s.step with number := n, attempt := 0, firstOut := false } })
  if n = 0xFFFFFFFFFFFF then otherSeen (logEv 0x0207 unitPE 6 0 (enterIdle { s1 with time := { s1.time with refuse := 6 } }))
  else if (lane r 0).getLsbD 27 then enterIdle s1
  else enterArmed (nextLaunch r) s1

/-- REPLAY: the attempt is abandoned and the instance arms for the relaunch with ATTEMPT one higher (R182); a stand-in takes its part from
here (R396). -/
def replayStep (r : Row) (s : State) : State :=
  let s1 := clearAttempt (abandon 3 s)
  takePart (enterArmed (nextLaunch r) { s1 with step := { s1.step with attempt := satOf 16 ((lane r 5).toNat % 65536 + 1) } })

/-- HALT: steps 1 to 3 of R182, then HALTED (R368). -/
def haltStep (s : State) : State :=
  let s1 := clearAttempt (abandon 4 s)
  takePart <| bankIfPending { s1 with step := { s1.step with state := .halted }, time := { s1.time with launchPending := false } }

/-- A die that failed at the step boundary is HALTED (R206, R379). -/
def haltIfFailed (s : State) : State :=
  if s.faults.dieFailed then { s with step := { s.step with state := .halted } } else s

/-- An instance acts on a seal broadcast of its attempt (R368). -/
def actOn (r : Row) (s : State) : State :=
  let s1 := noteHistory s
  let s2 := logOutcome r (noteBroadcast r s1)
  let s3 := forEach (sealedTiles s).eraseDups (disarmAll s2) (fun t u => setLeaf t (leafSealed s r) u)
  match (lane r 0).toNat / 2 ^ 28 with
  | 0 => haltIfFailed (sealedStep r (boundary s3))
  | 1 => haltIfFailed (sealedStep r (boundary s3))
  | 2 => let t := haltIfFailed (replayStep r (boundary s3)); { t with time := { t.time with exceptionsNow := 1 } }
  | _ => haltStep s3

/-- The instance is one that a broadcast of its step finds in an attempt: OPEN, DONE or ARMED, or a stand-in that waits in IDLE (R396). -/
def awaitsSeal (s : State) : Bool :=
  running s || s.step.state == .armed || (s.step.state == .idle && s.faults.role == .restoring)

/-- The broadcast on its way down: copied on, and acted on at the node where this instance feeds; one of another step is discarded as a
protocol error (R183, R367, R368). -/
def sealDown (a : Arrival) (c : Cord) (g : GroupDef) (s : State) : State :=
  let r := rowOfBytes c.payload
  let n := sealBelow s g a c
  let s1 := if sealComputes s g n.1 n.2 0 then copySeal g n.1 n.2 c s else s
  if feedNode s g (me s) ≠ some n then s1
  else if cStep c ≠ stepNo s || !awaitsSeal s ||
      (s.faults.role != .restoring && lane r 5 != s.step.attempt.setWidth 32) then
    protocolError 0 0 4 unitPE (discard 0 0 3 unitPE s1)
  else actOn r s1

/-- SEAL_BROADCAST_RECEIVE (R368). -/
def execSealBroadcastReceive (i : Nat) (s : State) : Host.Outcome State Fault Refusal := done s (takeSeal i 0 1 sealDown s)

/-! ### Drain markers (R182, R250) -/

/-- A drain marker arrives: one of the attempt just abandoned ends the discarding on its channel; one of the attempt still run here says
that what follows on the channel is of the relaunch. Cords of the step that came before it are discarded. -/
def takeDrain (a : Arrival) (m : Msg) (s : State) : State :=
  let att := fieldOf m.m1 0 16
  match channelOf s a with
  | none => s
  | some p =>
    let now := att == s.step.attempt.toNat
    let early := now && !s.step.drained.contains p
    let gone := fun (x : Arrival) => channelOf s x == some p && decide (x.seq ≤ a.seq) && (match x.body with
      | .cord c => ofStep (stepNo s) c
      | _ => false)
    let drop := fun (t : State) =>
      forEach (t.inbox.filter gone ++ (t.kiln.early.map (fun e => e.item)).filter gone ++
          (t.fabric.items.filter (fun it => incoming it && gone it.item && decide (it.sent.length ≤ it.arrived))).map (fun it => it.item))
        (dropRing (fun it => !(incoming it && gone it.item)) (dropInbox (fun x => !gone x) (freeEarly (fun x => !gone x) t)))
        (fun x u => match x.body with
          | .cord c => discard (cPlan c) (cIdx c) 3 (kilnCode s (cIdx c)) u
          | _ => u)
    if fieldOf m.m0 0 48 ≠ stepNo s then s
    else if early && (running s || s.step.state == .armed) then
      let t := drop s
      { t with step := { t.step with drained := t.step.drained ++ [p] } }
    else if s.step.draining.contains p && !now then
      let t := drop s
      { t with step := { t.step with draining := t.step.draining.filter (· != p) } }
    else s

/-- DRAIN (R250). -/
def execDrain (i : Nat) (s : State) : Host.Outcome State Fault Refusal :=
  done s (match s.inbox[i]? with
    | some a => (match a.body with
        | .ctrl m => if mType m = 2 then takeDrain a m { s with inbox := dropAt s.inbox i } else s
        | _ => s)
    | none => s)

end Sys2Proof.Machine
end

