-- ==== Sys2Proof/Machine/Steps.lean ====
section
/-! DEFINITION. Steps.lean: the step open, local completion, and the host's writes of the step registers (chapter 06). -/

namespace Sys2Proof.Machine

/-- A step runs short at this instance (R199). -/
def shortFor (s : State) : Bool :=
  s.step.bcastShort || s.step.firstOut || s.step.attempt != 0 || decide (claimable s < claimsOfStep s (stepNo s))

/-- SHORT of the coming or present step: fixed once the plan engine has opened it. -/
def shortNow (s : State) : Bool := if s.step.openW then s.step.short else shortFor s

/-- An instance counts as locked (R289); HOLDOVER_EXPIRY ends HOLDOVER in time. -/
def countsLocked (s : State) : Bool :=
  match s.time.state with
  | .master => true
  | .locked => true
  | .holdover => decide (s.time.tick.toNat ≤ s.time.holdoverSince.toNat + 100 * policy s (fun p => p.holdoverUs) 20000)
  | _ => false

/-! ### The leaves of an opening half (R128, R130, R156, R173, R175, R407) -/

/-- The trigger entries that a position loads (R130, R173): in a short step with ARMED at 0 until the entry's arm notice, MIRROR entries
aside (R200). -/
def loadTriggers (s : State) (i : Nat) (ls : LeafSet) : List Trig :=
  (ls.triggers.zipIdx.filter (fun p => loadsTrigger s (stepNo s) i p.1)).map (fun p =>
    let mirror := match entryAt s (trPlan p.1.1) with
      | some e => eKind e == 8
      | none => false
    { slot := p.2, w0 := p.1.1, w1 := p.1.2, threshold := trThreshold p.1.1, issued := 0,
      armed := trArmed p.1.2 && (!shortNow s || mirror || s.kiln.armed.contains (trPlan p.1.1)), fired := false, preheated := false })

/-- The landing entries that a position loads; a permit of 0 is met and visible from the start (R152, R173). -/
def loadLandings (s : State) (i : Nat) (ls : LeafSet) : List Land :=
  (ls.landings.zipIdx.filter (fun p => loadsLanding s (stepNo s) i p.1)).map (fun p =>
    let free := lePermitEn p.1.1 && decide (lePermitValue p.1.2 = 0)
    { slot := p.2, w0 := p.1.1, w1 := p.1.2, met := free, visible := free })

/-- The staging ring entries of a leaf set that are loaded (R171, R173). -/
def loadRings (ls : LeafSet) : SMap Word :=
  (ls.rings.zipIdx.filter (fun p => p.1 != 0)).map (fun p => (p.2, p.1))

/-- The tally record of a loaded landing entry at the open (R407): what it expects, from its first cord. -/
def openTally (s : State) (i : Nat) (x : Land) : Tally :=
  let plan := lePlan x.w0
  let r := match entryAt s plan with
    | some e => if eKind e = 5 then (0, 1) else landRange e (posNow s e) ((positionNow s e i).getD 0)
    | none => (0, 0)
  { slot := x.slot, step := s.step.number, attempt := s.step.attempt, plan := plan, status := 1, expected := r.2, first := r.1,
    landed := [], dups := 0, lastTick := 0 }

/-- The step record of a leaf (Table: Step record). -/
def stepRecord (s : State) (i : Nat) : WriteCtx :=
  { slot := 0, cord := none, stalled := false, void := false,
    beats := [fullBeat (stepRecAddr s) .stepRec
      [putField 16 48 (stepNo s) ||| putField 0 16 (epochOf s (sealGroup s)), s.step.seedLo, s.step.seedHi,
       putField 48 16 ((myDie s).getD 0) ||| putField 38 10 i, s.step.launch, putField 0 16 s.step.attempt.toNat, 0, 0]] }

/-- The leaf of a position in its step-open cycle: counters reset, entries loaded, LI_STEP_OPEN raised, the tally turned over, and the
step record its first write (R156, R175). -/
def openedLeaf (s : State) (i : Nat) (l : Leaf) : Leaf :=
  let ls := leafSetOf s i
  let lands := (ls.map (loadLandings s i)).getD []
  nextRecord { l with counters := [], stepOpen := true, sealing := false, trigs := (ls.map (loadTriggers s i)).getD [],
                      rings := (ls.map loadRings).getD [], lands := lands, fireQ := [], reading := l.reading.bind voidRead, gatherL := [],
                      gatherRead := [], landQ := [], held := [], tallyPrev := l.tally, tally := lands.map (openTally s i),
                      recQ := l.recQ.filter (fun w => w.cord.isNone) ++ (if stepRecEn s then [stepRecord s i] else []) ++
                        l.recQ.filter (fun w => w.cord.isSome) }

/-- The leaves of a half open; a trigger whose threshold is 0 fires in the same cycle (R131). -/
def openLeaves (east : Bool) (s : State) : State :=
  let opens := positionsOf s east
  let idle := (s.leaves.map Prod.fst).filter (fun t => segEast (segOf t) == east && !opens.any (fun p => p.2 == t))
  let s1 := forEach idle s (fun t u => setLeaf t (fun l => { l with tallyPrev := l.tally, tally := [] }) u)
  forEach opens s1 (fun p t => scanLeaf p.2 (setLeaf p.2 (openedLeaf s p.1) t))

/-! ### The plan engine's part of the open (R177, R183, R195, R199, R200, R389) -/

/-- Cords held early that belong to the step now open go back to the inbox, each in the buffer that it has, until its node's claim takes it
(R182, R183, R202); one whose buffer has had an uncorrectable word makes the attempt unclean (R203). -/
def releaseEarly (s : State) : State :=
  let ofNow := fun (x : Early) => match x.item.body with
    | .cord c => cStep c == stepNo s
    | _ => true
  let now := s.kiln.early.filter ofNow
  { s with kiln := { s.kiln with early := s.kiln.early.filter (fun x => !ofNow x) },
           inbox := now.map (fun x => { x.item with buf := some x.buf }) ++ s.inbox,
           step := { s.step with unclean := if now.any (fun x => x.bad) then s.step.unclean ||| uEcc else s.step.unclean } }

/-- Node instances, holds and claims of the step's active entries, waiting for admission in plan order (R177, R192, R195). -/
def openNodes (s : State) : State :=
  let es := activeEntries s
  let nodes := (es.flatMap (nodesFor s)).map (fun x => { x with lowest := lowestOf s x, lows := [lowNow s (lowestOf s x)] })
  let holds := es.flatMap (passHoldFor s)
  let asks := fun (e : PlanEntry) => nodes.any (fun n => n.plan == eIdx e && decide (0 < n.claim)) ||
    holds.any (fun p => p.plan == eIdx e)
  let waiting := (es.filter asks).map (fun e => (eIdx e, s.time.tick))
  { s with kiln := { s.kiln with nodes := nodes, passHolds := holds, waiting := waiting, admitted := [], armed := [],
                                 recoveryUsed := 0, landed := [] } }

/-- A short step whose cause is this instance's own claims is logged and counted (R199). -/
def noteShort (s : State) : State :=
  if s.step.short then
    ctrAdd 0x30818 1 (logEv 0x0405 unitPE (claimable s) (claimsOfStep s (stepNo s)) s)
  else s

/-- An instance that does not count as locked at its launch logs an unlocked launch (R294). -/
def noteLock (s : State) : State :=
  if countsLocked s then s else logEv 0x0206 unitPE (int32 s.time.offsetPs).toNat 0 s

/-- A half that opens after the launch tick logs a late launch with the ticks lost, an exception of the attempt it opens (R183, R296). -/
def noteLate (s : State) : State :=
  let late := s.time.tick.toNat - s.step.launch.toNat
  if late = 0 then s else logEv 0x0205 unitPE late 0 s

/-- The plan engine opens the step with the west half. -/
def openPlan (s : State) : State :=
  let short := shortFor s
  let s1 := { s with
    step := { s.step with state := .opened, pausedBase := pausedTotal s, short := short, flags := 0, nfSkip := false, nfHalt := false,
                          nfPlans := [], planFlags := [],
                          digestPrev := s.step.digestCur, digestCur := [], contributed := false, neverLaunched := false,
                          unclean := s.step.uncleanNext, uncleanNext := 0 },
    time := { s.time with launchPending := false },
    kiln := { s.kiln with bankUe := [] },
    tables := if s.step.neverLaunched then
        { s.tables with domains := s.tables.domains.map (fun p => (p.1, (p.2.1, s.step.number))) }
      else s.tables }
  let s2 := noteShort (noteLock (openNodes (releaseEarly s1)))
  let plans := s2.kiln.waiting.map Prod.fst
  let s3 := admitWaiting false plans.length s2
  let s4 := forEach ((activeEntries s3).filter (fun e => !plans.contains (eIdx e))) s3 (fun e t => afterAdmit (eIdx e) t)
  if earlyBits s4 = 0 then s4 else sendEarly s4

/-! ### The open itself -/

/-- A half has opened the step. -/
def halfOpen (s : State) (east : Bool) : Bool := if east then s.step.openE else s.step.openW

/-- A half may open: the tick has reached the launch tick, its clock runs, and its domains named for the step are WARM (R177, R346). -/
def mayOpen (s : State) (east : Bool) : Bool :=
  (s.step.state == .armed || running s) && !halfOpen s east && !s.faults.dieFailed && decide (s.step.launch.toNat ≤ s.time.tick.toNat) &&
    clockRuns s east && (openDoms s).all (fun d => eastDom d != east || !implemented s d || warm s d)

/-- STEP_OPEN (R177): the plan engine, which lies in the west half, opens the step with it. -/
def execStepOpen (h : Half) (s : State) : Host.Outcome State Fault Refusal :=
  let east := h == .east
  done s (if !mayOpen s east then s
    else
      let s1 := if east then s else openPlan s
      let s2 := openLeaves east (noteLate s1)
      { s2 with step := if east then { s2.step with openE := true } else { s2.step with openW := true } })

/-! ### Local completion (R178) -/

/-- Every loaded trigger entry of a leaf has issued its cords and they have been read; every landing entry has landed its cords. -/
def leafDone (l : Leaf) : Bool :=
  l.trigs.all (fun t => decide (trCount t.w1 ≤ t.issued)) && l.fireQ.isEmpty && l.reading.all (fun r => r.void) &&
    l.tally.all (fun t => t.status != 1)

/-- A node instance has forwarded what it computes upward, or finished it at the root, and copied what descends through it. -/
def nodeDone (s : State) (x : NodeInst) : Bool :=
  (List.range x.cords).all (fun c => !handles s x c ||
    (x.closed.contains c && (decide (x.node.stage.val = 0) || !descends s x c || x.copied.contains c || x.taken.contains c)) ||
    (x.taken.contains c && (findOpen x c).isNone))

/-- Some position in the east loads entries in the step: until the east opens, they are not loaded and have issued and landed nothing. -/
def eastLoads (s : State) : Bool := (segsLoading s (stepNo s) none).any segEast

/-- Local completion holds (R178). A half that has not opened has loaded no entry: the east then counts only where entries would load. -/
def locallyComplete (s : State) : Bool :=
  s.step.state == .opened && (s.step.openE || !eastLoads s) &&
    (positionsOf s false ++ (if s.step.openE then positionsOf s true else [])).all (fun p => leafDone (leafAt s p.2)) &&
    s.kiln.nodes.all (nodeDone s) && s.step.mirrorOut.isEmpty

/-- LOCAL_COMPLETION (R178): the seal contribution is sent, with SHORT of the next step as it stands, and the instance enters DONE (R199,
R358, R360). -/
def execLocalCompletion (s : State) : Host.Outcome State Fault Refusal :=
  done s (if locallyComplete s && !s.faults.dieFailed then
      feedSeal 0 (sealRow (reportsShort s) s)
        { s with step := { s.step with contributed := true, shortSent := reportsShort s, state := .done } }
    else s)

/-! ### Registers of the step (R174, R180) -/

/-- A write to KX_STEP_CTRL: STOP_REQ makes a stop pending (R180). -/
def writeStepCtrl (v : Word) (s : State) : State :=
  onlyIf (bitOf v 0) s (fun t => { t with step := { t.step with stopPending := true } })

/-- STOP_REQ (R180). -/
def execStopReq (v : Word) (s : State) : Host.Outcome State Fault Refusal := done s (hostWrite s (writeStepCtrl v))

/-- A write that counts only in IDLE; elsewhere it is ignored and counted (R174). -/
def inIdle (off : Nat) (f : State → State) (s : State) : State :=
  if s.step.state = .idle then f s else countIgnored off s

/-- A write to KX_STEP_NUMBER (R174). -/
def writeStepNumber (v : Word) (s : State) : State :=
  inIdle 0x4010 (fun t => tryRelease false { t with step := { t.step with number := BitVec.ofNat 48 (fieldOf v 16 48) } }) s

/-- STEP_NUMBER_WRITE (R174). -/
def execStepNumberWrite (v : Word) (s : State) : Host.Outcome State Fault Refusal := done s (hostWrite s (writeStepNumber v))

/-- A write to KX_JOB_SEED_LO or KX_JOB_SEED_HI (R174). -/
def writeSeed (hi : Bool) (v : Word) (s : State) : State :=
  inIdle (if hi then 0x4020 else 0x4018) (fun t =>
    tryRelease false { t with step := if hi then { t.step with seedHi := v } else { t.step with seedLo := v } }) s

/-- JOB_SEED_WRITE (R174). -/
def execJobSeedWrite (hi : Bool) (v : Word) (s : State) : Host.Outcome State Fault Refusal := done s (hostWrite s (writeSeed hi v))

end Sys2Proof.Machine
end

