-- ==== Sys2Proof/Machine/TimeSync.lean ====
section
/-! DEFINITION. TimeSync.lean: the global tick, the time tree and its exchange, lock, and the launch tick (chapter 10). -/

namespace Sys2Proof.Machine

/-! ### Links of the time tree (R279) -/

/-- The time-enabled links with their hall flows. -/
def timeLinks (s : State) : List (Nat × Nat) :=
  (List.range 18).flatMap (fun k => match effPort s k with
    | some c => if !c.timeEn || c.mode == 0 then []
        else if c.mode = 3 then (List.range c.peers.length).map (fun f => (k, f)) else [(k, 0)]
    | none => []) ++
  (List.range 6).flatMap (fun u => match modCfg s u with
    | some c => if c.enabled && c.timeEn then [(18 + u, 0)] else []
    | none => [])

/-- The link, or the hall flow, is UP. -/
def timeUp (s : State) (k f : Nat) : Bool := linkUp s k && (!isEth s k || (flowAt s k f).state == 2)

/-- A link that takes part in the exchange now; an idle spare carries no message (R244). -/
def timeLive (s : State) (k f : Nat) : Bool := (timeLinks s).contains (k, f) && timeUp s k f && (linkAt s k).role != 1

/-- Its state is UP, with no retrain or degrade in progress. -/
def timeSteady (s : State) (k f : Nat) : Bool := timeUp s k f && (linkAt s k).state == .up

/-- The exchange of a link before its first message. -/
def exchInit (k f : Nat) : Exch :=
  { link := linkOf k, flow := f, seq := 0, echoSeq := 0, sent := [], rcvd := [], said := (0, 0, 0), peerM4 := 0, peerM5 := 0, peerM6 := 0,
    peer := 0xFFFFFF,
    delays := [] }

/-- The exchange of a link. -/
def exchAt (s : State) (k f : Nat) : Exch := (s.time.exch.find? (fun x => linkNo x.link == k && x.flow == f)).getD (exchInit k f)

/-- Change the exchange of a link. -/
def setExch (k f : Nat) (g : Exch → Exch) (s : State) : State :=
  let x := g (exchAt s k f)
  { s with time := { s.time with exch := s.time.exch.filter (fun y => !(linkNo y.link == k && y.flow == f)) ++ [x] } }

/-- HOPS of the peer's last message. -/
def xHops (x : Exch) : Nat := fieldOf x.peerM4 44 4
/-- The peer is upstream for the present master: it advertises it with a path and does not take its time from here, by this or another link
(R279). -/
def offersTime (s : State) (x : Exch) : Bool :=
  x.echoSeq != 0 && fieldOf x.peerM4 16 24 == coordinator s && decide (xHops x < 15) &&
    !(s.time.exch.any (fun y => y.echoSeq != 0 && y.peer == x.peer && bitOf y.peerM4 40)) && timeLive s (linkNo x.link) x.flow

/-- The order of R279 among two offers: fewer HOPS, then the lower instance identifier, then the lower port, ports before modules. -/
def offerBefore (x y : Exch) : Bool :=
  let key := fun (z : Exch) => ((xHops z * 2 ^ 24 + z.peer.toNat) * 64 + linkNo z.link) * 64 + z.flow
  decide (key x < key y)

/-- The best offer among the links that are UP. -/
def bestOffer (s : State) : Option Exch :=
  (s.time.exch.filter (fun x => offersTime s x && timeSteady s (linkNo x.link) x.flow)).foldl (fun b x => match b with
    | some y => if offerBefore x y then some x else some y
    | none => some x) none

/-- The exchange with the upstream. -/
def upstreamExch (s : State) : Option Exch :=
  match s.time.upstream with
  | some (l, f) => s.time.exch.find? (fun x => x.link == l && x.flow == f)
  | none => none

/-- Choose the upstream (R279): the present one stays while it reaches the master, unless another offers at least 2 hops fewer. -/
def chooseUpstream (s : State) : State :=
  let pick := fun (x : Exch) => { s with time := { s.time with upstream := some (x.link, x.flow), hops := min (xHops x + 1) 15 } }
  let best := bestOffer s
  match (upstreamExch s).filter (offersTime s), best with
  | some u, some b => if xHops b + 2 ≤ xHops u then pick b else pick u
  | some u, none => pick u
  | none, some b => pick b
  | none, none => { s with time := { s.time with upstream := none, hops := 15 } }

/-! ### Time states and lock (R288 to R291) -/

/-- Enter a time state: the change is logged, and a loss of lock with its offset (R288, R291). -/
def setTState (st : TState) (s : State) : State :=
  if s.time.state = st then s
  else
    let s1 := { s with time := { s.time with
      state := st,
      goodRun := if st = .acquiring then 0 else s.time.goodRun,
      firstSample := if st = .acquiring then true else s.time.firstSample,
      holdoverSince := if st = .holdover then s.time.tick else s.time.holdoverSince } }
    let off := (int32 s.time.offsetPs).toNat
    let s2 := logEv 0x0202 unitEmber (timeCode s1) off s1
    let lockish := fun (x : TState) => x == .master || x == .locked || x == .holdover
    if lockish s.time.state && !lockish st then logEv 0x0204 unitEmber off (timeCode s1) s2 else s2

/-- The current time master as this instance knows it (R278). -/
def setMaster (m : Nat) (s : State) : State :=
  if s.time.master.toNat = m then s
  else logEv 0x0203 unitEmber m s.time.lockGen.toNat { s with time := { s.time with master := BitVec.ofNat 24 m } }

/-- The peers that report this instance as upstream (R289). -/
def downPeers (s : State) : List Exch := s.time.exch.filter (fun x => bitOf x.peerM4 40 && timeUp s (linkNo x.link) x.flow)

/-- Every one of them has reported SUBTREE_LOCKED. -/
def downLocked (s : State) : Bool := (downPeers s).all (fun x => bitOf x.peerM4 42)

/-- Every time-enabled link of the master is UP or FAILED (R290); a hall flow is UP or down. -/
def timeSettled (s : State) : Bool :=
  (timeLinks s).all (fun p => timeSteady s p.1 p.2 || (linkAt s p.1).state == .failed || (isEth s p.1 && (flowAt s p.1 p.2).state == 3))

/-- The image has been accepted and the tree built: time acquisition runs (R328). -/
def acquires (s : State) : Bool := decide (2 ≤ kindleCode s)

/-- SYS_LOCKED becomes 1 in KINDLED for the first time: the kindling state is LOCKED (R290, R328). -/
def noteLocked (s : State) : State :=
  if s.kindle.state == .kindled && s.time.sysLocked then { s with kindle := { s.kindle with state := .locked, stage := 10 } } else s

/-- SYS_CONFIRM at the master (R290): set with a new LOCK_GEN when every downstream peer reports SUBTREE_LOCKED and every link has settled,
cleared when one withdraws. -/
def confirm (s : State) : State :=
  let t := s.time
  if !t.sysConfirm && downLocked s && timeSettled s then
    { s with time := { t with sysConfirm := true, confirmedOnce := true, lockGen := t.lockGen + 1, sysLocked := true, subtreeLocked := true } }
  else
    let ok := t.sysConfirm && downLocked s
    { s with time := { t with sysConfirm := ok, sysLocked := ok, subtreeLocked := downLocked s } }

/-- What an instance that is not the master takes from its upstream (R289, R290). -/
def follow (s : State) : State :=
  match upstreamExch s with
  | none => { s with time := { s.time with sysConfirm := false, sysLocked := false, subtreeLocked := countsLocked s && downLocked s } }
  | some x =>
    let s1 := setMaster (coordinator s) { s with time := { s.time with lockGen := BitVec.ofNat 16 (fieldOf x.peerM4 48 16) } }
    let ok := countsLocked s1 && bitOf x.peerM4 41
    { s1 with time := { s1.time with
      sysConfirm := ok, confirmedOnce := s1.time.confirmedOnce || bitOf x.peerM4 41, sysLocked := ok,
      subtreeLocked := countsLocked s1 && downLocked s1 } }

/-- This instance is the time master. -/
def isMaster (s : State) : Bool := isCoordinator s && acquires s

/-- The role, upstream and state of this instance (R278, R279, R288): an instance that becomes master has yet to confirm (R290, R298), and
one that is LOCKED and loses its upstream holds over, whatever other link offers time (R298). A link's exchange state (its history of 64
delays, its SEQ and the stamps) is dropped when the link is no longer up: R284 does not say what a link that comes back keeps. DESIGN
CHOICE, log 81. -/
def settleRole (s : State) : State :=
  let s0 := { s with time := { s.time with exch := s.time.exch.filter (fun x => timeUp s (linkNo x.link) x.flow) } }
  if isMaster s0 then
    let s1 := setMaster (me s0) { s0 with time := { s0.time with upstream := none, hops := 0 } }
    if s1.time.state = .master then s1 else setTState .master { s1 with time := { s1.time with sysConfirm := false } }
  else
    let s1 := if s0.time.state = .master then
        setTState .holdover { s0 with time := { s0.time with hops := 15, sysConfirm := false } } else s0
    let lost := s1.time.upstream.isSome && ((upstreamExch s1).filter (offersTime s1)).isNone
    let s2 := if acquires s1 then chooseUpstream s1 else { s1 with time := { s1.time with upstream := none, hops := 15 } }
    if s2.time.state = .locked ∧ (lost ∨ s2.time.upstream.isNone) then setTState .holdover s2
    else if s2.time.state = .free ∧ s2.time.upstream.isSome then setTState .acquiring s2
    else s2

/-- The time tree as the present links and messages make it: role, upstream, state and lock (R278, R279, R288 to R290). -/
def settleTime (s : State) : State :=
  let s1 := settleRole s
  noteLocked (if isMaster s1 then confirm s1 else follow s1)

/-! ### Setting the tick (R277) -/

/-- The tick is set other than by slewing: logged with the old and new values; timestamps of the old time are of no more use. -/
def stepTick (tick : Word) (frac : BitVec 32) (s : State) : State :=
  let s1 := { s with time := { s.time with tick := tick, frac := frac,
                                           exch := s.time.exch.map (fun x => { x with sent := [], rcvd := [] }) } }
  logWide 0x0201 unitEmber s.time.tick (tick.toNat / 2 ^ 32) tick.toNat s1

/-- The tick with its fraction moved by picoseconds. -/
def movePs (t : Word) (frac : BitVec 32) (ps : Int) : Word × BitVec 32 :=
  let n : Int := (t.toNat : Int) * 2 ^ 32 + frac.toNat + ps * 2 ^ 32 / 10000
  (BitVec.ofInt 64 (n / 2 ^ 32), BitVec.ofInt 32 n)

/-- A host write to KX_TICK_SET: taken at the master until the system has first been confirmed, by this master or one before it (R298). -/
def writeTickSet (v : Word) (s : State) : State :=
  if s.time.state == .master && isCoordinator s && !s.time.confirmedOnce then stepTick v 0 s else countIgnored 0x2010 s

/-- TICK_SET. -/
def execTickSet (v : Word) (s : State) : Host.Outcome State Fault Refusal := done s (hostWrite s (writeTickSet v))

/-- A read of KX_TICK latches KX_TICK_PHASE: the fraction, and the west half's sub-tick phase, a free value while its clock runs. -/
def readTick (s : State) : State :=
  let runs := clockRuns s false
  useFree (answer s.time.tick false { s with time := { s.time with
    latchFrac := s.time.frac, latchSub := if runs then subPhase s false else 0, latchValid := runs } })

/-- TICK_READ (R433). -/
def execTickRead (s : State) : Host.Outcome State Fault Refusal := done s (hostWrite s readTick)

/-! ### The exchange (R281 to R285) -/

/-- The half of a link. -/
def linkEast (k : Nat) : Bool := (unitHalf (unitLink k)).getD false

/-- A timestamp lies within 64 fast cycles of a throttle change of the half: of the step before it or of the one after it (R284). -/
def nearThrottle (s : State) (east : Bool) (t : Word) : Bool :=
  let tick := t.toNat / 16
  (smGet [] s.power.throttled (if east then 1 else 0)).any (fun c => decide (c.1 ≤ tick + c.2.1) && decide (tick ≤ c.1 + c.2.2))

/-- Why a timestamp taken now on a link may not be used. -/
def stampBad (s : State) (k : Nat) (t : Word) : Nat :=
  if !clockRuns s (linkEast k) then 2 else if nearThrottle s (linkEast k) t then 1 else 0

/-- A latency of the integration parameters in sub-tick units of 625 ps, rounded to the nearest. -/
def latPhases (l : List Nat) (i : Nat) : Nat := ((l[i]?).getD 0 + 312) / 625

/-- Position of a module's rate in the latency tables. -/
def rateSlot (gts : Nat) : Nat := (indexIn gts [4, 8, 12, 16, 24, 32]).getD 0

/-- A send time corrected by the transmit latency (R282). -/
def txStamp (s : State) (k : Nat) (t : Word) : Word :=
  let l := linkAt s k
  t + BitVec.ofNat 64 (if k < 18 then latPhases s.params.pmaTxLatPs l.rate.toNat else latPhases s.params.fdiTxLatPs (rateSlot l.rateGts.toNat))

/-- A receive time corrected by the receive latency (R282). -/
def rxStamp (s : State) (k : Nat) (t : Word) : Word :=
  let l := linkAt s k
  t - BitVec.ofNat 64 (if k < 18 then latPhases s.params.pmaRxLatPs l.rate.toNat else latPhases s.params.fdiRxLatPs (rateSlot l.rateGts.toNat))

/-- M4 of this instance on a link (R281). -/
def exchM4 (s : State) (k f : Nat) : Word :=
  putField 48 16 s.time.lockGen.toNat ||| putField 44 4 s.time.hops ||| bitAt 43 (countsLocked s) ||| bitAt 42 s.time.subtreeLocked |||
    bitAt 41 s.time.sysConfirm ||| bitAt 40 (s.time.upstream == some (linkOf k, f)) ||| putField 16 24 s.time.master.toNat

/-- M5: the pending launch tick from the master (R293). -/
def exchM5 (s : State) : Word :=
  if s.time.state = .master then (if s.time.launchPending then s.time.launchTick else 0) else s.time.launchPass

/-- A timestamp as it is reported: one that may not be used, for a throttle change before or after it too, is reported as none (R284,
log 12). -/
def reported (s : State) (k : Nat) (x : Option Stamp) : Word :=
  match x with
  | some t => if t.bad = 0 && !nearThrottle s (linkEast k) t.time then t.time else 0
  | none => 0

/-- The next TIME_EXCHANGE message of a link (Table: TIME_EXCHANGE body), to the adjacent peer. -/
def mkExchange (s : State) (k f : Nat) : Msg :=
  let x := exchAt s k f
  { m0 := mkM0 s 1 0xFFFFFF,
    m1 := putField 32 32 (hallNext x.seq).toNat ||| putField 0 32 x.echoSeq.toNat,
    m2 := reported s k x.sent.head?, m3 := reported s k (x.rcvd.find? (fun t => t.seq == x.echoSeq)),
    m4 := exchM4 s k f, m5 := exchM5 s, m6 := putField 48 16 s.time.launchGen.toNat, m7 := 0 }

/-- An end sends TIME_EXCHANGE on a link and keeps when it left, where that is known; otherwise the stamp is taken when its flit or frame leaves,
`stampSent` (R281, R282). How many stamps an end keeps no rule says: its last 4 sent and last 2 received. DESIGN CHOICE, log 101. -/
def sendExchange (k f : Nat) (left : Option Word) (s : State) : State :=
  if !timeLive s k f then s
  else
    let m := mkExchange s k f
    let seq := hallNext (exchAt s k f).seq
    let st : Stamp := match left with
      | some t => { seq := seq, time := txStamp s k t, bad := stampBad s k t }
      | none => { seq := seq, time := 0, bad := 3 }
    let s1 := linkCtr k 0x120 1 (setExch k f (fun x => { x with seq := seq, sent := (st :: x.sent).take 4, said := (m.m4, m.m5, m.m6) }) s)
    if isEth s k then setLink k (fun l => { l with timingQ := l.timingQ ++ [(f, msgBytes m)] }) s1 else mgmtOn k f m s1

/-- A TIME_EXCHANGE message leaves the link now: its send time is taken (R282). -/
def stampSent (k f : Nat) (seq : BitVec 32) (s : State) : State :=
  if (exchAt s k f).sent.any (fun x => x.seq == seq && x.bad == 3) then
    let t := stampOf (unitLink k) s
    useFree (setExch k f (fun x => { x with sent := x.sent.map (fun y =>
      if y.seq = seq ∧ y.bad = 3 then { y with time := txStamp s k t, bad := stampBad s k t } else y) }) s)
  else s

/-- The SEQ of a TIME_EXCHANGE message. -/
def exchSeq (m : Msg) : BitVec 32 := BitVec.ofNat 32 (fieldOf m.m1 32 32)

/-- The TIME_EXCHANGE messages in a VC4 flit on the wire. -/
def exchIn (b : List Byte) : List Msg :=
  if fieldOf (wordAt b 0) 61 3 = 4 ∧ !bitOf (wordAt b 0) 60 then (slotsOf (b.drop 8)).filter (fun m => mType m == 1) else []

/-- The send times of the messages that leave a link at an ember edge: of a port's or module's flits on the wire, of an Ethernet port's TIMING
frames, which stand in `frames` (R282). -/
def stampLeft (k : Nat) (frames : List EthFrame) (s : State) : State :=
  if isEth s k then forEach (frames.filter (fun fr => fr.type == 4)) s (fun fr t => stampSent k fr.flow (exchSeq (msgOfBytes fr.body)) t)
  else forEach ((linkAt s k).wire.flatMap exchIn) s (fun m t => stampSent k 0 (exchSeq m) t)

/-- Outside the period an end sends at once on each link on which a field of M4 to M6 has changed since its last message (R281), so that a new
LAUNCH_GEN goes downstream at once (R293). -/
def announce (s : State) : State :=
  forEach (timeLinks s) s (fun p t =>
    let x := exchAt t p.1 p.2
    let m := mkExchange t p.1 p.2
    if timeLive t p.1 p.2 && x.seq != 0 && x.said != (m.m4, m.m5, m.m6) then sendExchange p.1 p.2 none t else t)

/-- The time tree settles, and what has changed in it is announced. -/
def settleAndTell (s : State) : State := announce (settleTime s)

/-- TIME_EXCHANGE_SEND (R281). -/
def execTimeExchangeSend (l : Link) (flow : Fin 64) (txTime : Word) (s : State) : Host.Outcome State Fault Refusal :=
  done s (sendExchange (linkNo l) flow.val (some txTime) s)

/-- ASYM of a link, ps. -/
def asymOf (s : State) (k : Nat) : Int :=
  if k < 18 then ((effPort s k).map (fun c => c.asymPs)).getD 0 else ((modCfg s (k - 18)).map (fun c => c.asymPs)).getD 0

/-- The difference of two timestamps in picoseconds. -/
def diffPs (a b : Word) : Int := (a - b).toInt * 625

/-- Bound a rate word to 200 ppm of nominal. -/
def clampPpb (r : Int) : Int := max (-200000) (min 200000 r)

/-- The exchange period in µs (R287). -/
def exchPeriod (s : State) : Nat :=
  if s.time.state = .acquiring then policy s (fun p => p.exchAcqUs) 10 else policy s (fun p => p.exchLockedUs) 100

/-- The servo's new rate word: it removes half of the offset within the next exchange period, on top of a drift term that the spec leaves
open (R285, log 2). -/
def servo (o : Int) (s : State) : State :=
  useFree { s with time := { s.time with ratePpb := clampPpb (Config.freeDrift s.free - o * 500 / (exchPeriod s : Int)) } }

/-- An accepted sample: recorded, followed by the servo or the first step of an acquisition, and the state moves (R285, R288). -/
def acceptSample (o d : Int) (s : State) : State :=
  let small := decide (o ≤ 1000) && decide (-1000 ≤ o)
  let big := decide (50000 < o) || decide (o < -50000)
  let s1 := { s with time := { s.time with
    samples := satAdd s.time.samples 1, offsetPs := o, delayPs := d, goodRun := if small then s.time.goodRun + 1 else 0 } }
  let busy := s.step.state == .armed || running s
  match s.time.state with
  | .acquiring =>
    let first := s.time.firstSample
    let s2 := { s1 with time := { s1.time with firstSample := false } }
    let s3 := if first && !busy then (let p := movePs s.time.tick s.time.frac (-o)
        stepTick p.1 p.2 s2) else servo o s2
    if 16 ≤ s3.time.goodRun then setTState .locked s3 else s3
  | .locked => let s2 := servo o s1
    if big then setTState .acquiring s2 else s2
  | .holdover => setTState (if big then .acquiring else .locked) (servo o s1)
  | _ => s1

/-- DELAY_WINDOW of a link, ps. -/
def delayWindow (s : State) (k : Nat) : Int :=
  if linkLevel s k = 4 then policy s (fun p => p.delayWinL4Ps) 5000 else policy s (fun p => p.delayWinL13Ps) 2000

/-- A sample from four timestamps on the upstream link: discarded for a throttle change, an invalid phase or a long delay, else accepted
(R283, R284). -/
def takeSample (k f : Nat) (t1 t4 : Word) (t2 t3 : Stamp) (s : State) : State :=
  let near := nearThrottle s (linkEast k)
  if t2.bad = 2 ∨ 2 ≤ t3.bad then linkCtr k 0x148 1 s
  else if t2.bad = 1 ∨ t3.bad = 1 ∨ near t2.time ∨ near t3.time then linkCtr k 0x140 1 s
  else
    let down := diffPs t2.time t1
    let up := diffPs t4 t3.time
    let o := (down - up - asymOf s k) / 2
    let d := (down + up) / 2
    let ds := (d :: (exchAt s k f).delays).take 64
    let s1 := setExch k f (fun x => { x with delays := ds }) s
    if d ≤ ds.foldl min d + delayWindow s k then acceptSample o d (linkCtr k 0x130 1 s1) else linkCtr k 0x138 1 s1

/-- A new LAUNCH_GEN from the upstream (R293): copied downstream; an instance READY, IDLE and SYS_LOCKED takes the tick, another logs the
generation (R331). Before READY it is logged with reason 3, as for one that is not IDLE. DESIGN CHOICE, log 79. A new generation that comes
with no pending launch tick is kept, and neither taken nor logged: the rule does not speak of one. DESIGN CHOICE, log 102. -/
def takeGen (tick : Word) (gen : BitVec 16) (s : State) : State :=
  if gen = s.time.launchGen then { s with time := { s.time with launchPass := tick } }
  else
    let s1 := { s with time := { s.time with launchGen := gen, launchPass := tick } }
    if tick = 0 then s1
    else if isReady s && s.step.state == .idle && s.time.sysLocked then takeLaunch tick gen s1
    else logEv 0x0207 unitEmber (if isReady s && s.step.state == .idle then 2 else 3) gen.toNat s1

/-- A received TIME_EXCHANGE (R279, R283, R293). -/
def takeExchange (k f : Nat) (m : Msg) (t : Word) (s : State) : State :=
  let seq := BitVec.ofNat 32 (fieldOf m.m1 32 32)
  let echo := BitVec.ofNat 32 (fieldOf m.m1 0 32)
  if !timeLive s k f || seq = 0 then s
  else
    let x := exchAt s k f
    let st : Stamp := { seq := seq, time := rxStamp s k t, bad := stampBad s k t }
    let s1 := settleTime (linkCtr k 0x128 1 (setExch k f (fun y => { y with
      echoSeq := seq, rcvd := (st :: y.rcvd).take 2, peerM4 := m.m4, peerM5 := m.m5, peerM6 := m.m6,
      peer := BitVec.ofNat 24 (mSrc m) }) s))
    if s1.time.upstream ≠ some (linkOf k, f) then s1
    else
      let s2 := match x.rcvd.find? (fun y => hallNext y.seq == seq), x.sent.find? (fun y => y.seq == echo) with
        | some t2, some t3 => if m.m2 = 0 ∨ m.m3 = 0 then s1 else settleTime (takeSample k f m.m2 m.m3 t2 t3 s1)
        | _, _ => s1
      takeGen m.m5 (BitVec.ofNat 16 (fieldOf m.m6 48 16)) s2

/-- TIME_EXCHANGE (R283). -/
def execTimeExchange (i : Nat) (rxTime : Word) (s : State) : Host.Outcome State Fault Refusal :=
  done s (match s.inbox[i]? with
    | none => s
    | some a => match a.src, a.body with
      | .link l f, .mgmt m => if mType m = 1 then announce <| takeExchange (linkNo l) f m rxTime { s with inbox := dropAt s.inbox i } else s
      | _, _ => s)

/-- TIME_LOSS: TIME_LOSS_LIMIT periods without an accepted sample (R288). -/
def execTimeLoss (s : State) : Host.Outcome State Fault Refusal :=
  done s (if s.time.state == .locked then follow (setTState .holdover s) else s)

/-- HOLDOVER_EXPIRY: HOLDOVER_LIMIT has passed; the instance is FREE and has no upstream until it chooses one (R288). -/
def execHoldoverExpiry (s : State) : Host.Outcome State Fault Refusal :=
  done s (if s.time.state == .holdover && !countsLocked s then
      follow { setTState .free s with time := { (setTState .free s).time with upstream := none, hops := 15 } }
    else s)

/-! ### Launch (R292) -/

/-- A host write to KX_LAUNCH_TICK: at the root placement of SEAL_GROUP in IDLE with no launch pending; otherwise ignored and counted. -/
def writeLaunchTick (v : Word) (s : State) : State :=
  if isCoordinator s && s.step.state == .idle && !s.time.launchPending then { s with time := { s.time with launchTick := v } }
  else countIgnored 0x2030 s

/-- LAUNCH_TICK_WRITE (R292). -/
def execLaunchTickWrite (v : Word) (s : State) : Host.Outcome State Fault Refusal := done s (hostWrite s (writeLaunchTick v))

/-- The lowest-numbered reason to refuse a launch, 0 for none (R292). An instance launches only from READY (R331); before it the reason is 3.
DESIGN CHOICE, log 79. -/
def launchReason (s : State) : Nat :=
  if s.time.state ≠ .master then 1
  else if !s.time.sysConfirm then 2
  else if s.step.state ≠ .idle ∨ !isReady s then 3
  else if s.time.launchTick.toNat < s.time.tick.toNat + policy s (fun p => p.launchLeadMin) 50000 then 4
  else if s.time.launchPending then 5
  else if stepNo s = 0xFFFFFFFFFFFF then 6
  else 0

/-- ARM at the time master: an accepted launch raises LAUNCH_GEN, goes downstream and feeds the check here; a refused one is recorded and
logged (R292, R293). An accepted launch returns REFUSE_REASON to 0: R292 does not say when it does. DESIGN CHOICE, log 80. -/
def armLaunch (s : State) : State :=
  let r := launchReason s
  if r = 0 then announce <| takeLaunch s.time.launchTick (s.time.launchGen + 1) { s with time := { s.time with refuse := 0 } }
  else logEv 0x0207 unitEmber r 0 { s with time := { s.time with refuse := BitVec.ofNat 4 r } }

/-- A host write to KX_LAUNCH_CTRL (R292). -/
def writeLaunchCtrl (v : Word) (s : State) : State :=
  if !bitOf v 0 then s else if isCoordinator s then armLaunch s else countIgnored 0x2038 s

/-- LAUNCH_ARM (R292). -/
def execLaunchArm (v : Word) (s : State) : Host.Outcome State Fault Refusal := done s (hostWrite s (writeLaunchCtrl v))

/-! ### The tick at an ember edge (R274) -/

/-- The tick and its fraction advance by the rate word. -/
def advanceTick (s : State) : State :=
  let n : Int := (s.time.tick.toNat : Int) * 2 ^ 32 + s.time.frac.toNat + 2 ^ 32 + s.time.ratePpb * 2 ^ 32 / 1000000000
  { s with time := { s.time with tick := BitVec.ofInt 64 (n / 2 ^ 32), frac := BitVec.ofInt 32 n } }

end Sys2Proof.Machine
end

