-- ==== Sys2Proof/Machine/Kindle.lean ====
section
/-! DEFINITION. Kindle.lean: from COLD to READY (chapter 11): the request, reading and checking the image, loading it, tiles, links, tree
build, and the self-test. -/

namespace Sys2Proof.Machine

/-! ### Before the request (R300 to R302) -/

/-- A host write to KX_TRUST_CTRL locks the anchor (R301). -/
def writeTrustCtrl (v : Word) (s : State) : State :=
  if bitOf v 0 then { s with kindle := { s.kindle with anchorLocked := true } } else s

/-- ANCHOR_LOCK (R301). -/
def execAnchorLock (v : Word) (s : State) : Host.Outcome State Fault Refusal := done s (hostWrite s (writeTrustCtrl v))

/-- A host write to KX_TRUST_ANCHOR[k]: ignored and counted once the anchor is locked (R301). -/
def writeAnchor (k : Nat) (v : Word) (s : State) : State :=
  if s.kindle.anchorLocked then countIgnored (0x1040 + 8 * k) s
  else { s with kindle := { s.kindle with anchor := smSet 0 s.kindle.anchor k v } }

/-- TRUST_ANCHOR_WRITE (R301). -/
def execTrustAnchorWrite (k : Fin 6) (v : Word) (s : State) : Host.Outcome State Fault Refusal := done s (hostWrite s (writeAnchor k.val v))

/-- A host write to KX_INSTANCE_ID: only in COLD and before the first accepted KINDLE_REQ (R300). -/
def writeInstanceId (v : Word) (s : State) : State :=
  if s.kindle.state = .cold ∧ !s.kindle.requested then
    { s with kindle := { s.kindle with instanceId := BitVec.ofNat 24 (fieldOf v 40 24) } }
  else countIgnored 0x1010 s

/-- INSTANCE_ID_WRITE (R300). -/
def execInstanceIdWrite (v : Word) (s : State) : Host.Outcome State Fault Refusal := done s (hostWrite s (writeInstanceId v))

/-- KX_DISABLED_TILES may be written (R302). -/
def disabledOpen (s : State) : Bool :=
  !s.params.hearthOnly && (s.kindle.state == .cold || s.power.banked ||
    (isReady s && (s.step.state == .idle || s.step.state == .halted)))

/-- A host write to KX_DISABLED_TILES[k] (R302). -/
def writeDisabled (k : Nat) (v : Word) (s : State) : State :=
  if disabledOpen s then { s with kindle := { s.kindle with disabled := smSet 0 s.kindle.disabled k v } }
  else countIgnored (0x1080 + 8 * k) s

/-- DISABLED_TILES_WRITE (R302). -/
def execDisabledTilesWrite (k : Fin 9) (v : Word) (s : State) : Host.Outcome State Fault Refusal :=
  done s (hostWrite s (writeDisabled k.val v))

/-- The trust anchor as bytes (R301). -/
def anchorBytes (s : State) : List Byte := (List.range 6).flatMap (fun i => wordBytes (smGet 0 s.kindle.anchor i))

/-- The disabled-tile list as written. -/
def disabledList (s : State) : BitVec 576 :=
  (List.range 9).foldl (fun m i => m ||| ((smGet 0 s.kindle.disabled i).setWidth 576 <<< (64 * i))) 0

/-! ### The request (R300, R332, R333, R336) -/

/-- The KX4-mode ports that keep their equalisation across a re-kindle, where the new image leaves them unchanged (R334); out of COLD there is
none to keep (R325). -/
def equalised (s : State) : List Nat :=
  if s.kindle.state = .cold then []
  else (List.range 18).filter (fun k => !isEth s k && ((portCfg s k).map (fun c => c.mode != 0)).getD false)

/-- Kindling starts: everything of the last image is discarded (R333), counters clear (R417), injectors and captures are released (R427),
time lock enters HOLDOVER, and stage 1 requests its domains; those of a banked block wake with them (R332). -/
def startKindle (s : State) : State :=
  let keep := equalised s
  let s1 := ctrClear (dropImage (rekindleObserve s))
  let s2 := { s1 with
    kindle := { s1.kindle with
      state := .kindling, stage := 1, failCode := 0, failSection := 0, failIndex := 0, count := satAdd s1.kindle.count 1,
      requested := true, disabledTaken := if s.kindle.afterWake then s1.kindle.disabledTaken else disabledList s1, afterWake := false,
          keepEq := keep, nvmInfo := 0, addr4Ok := false },
    time := { s1.time with sysLocked := false, sysConfirm := false, confirmedOnce := false, samples := 0, launchPending := false,
                           refuse := 0, exceptionsNow := 0 },
    power := { s1.power with banked := false, waking := false, bankDrains := false } }
  let s3 := settleTime (logEv 0x0101 unitKindle s2.kindle.count.toNat 0 s2)
  stage1Check (requestDoms stage1Doms s3)

/-- A KINDLE_REQ that found the block banked kindles once it has woken (R332), with the disabled-tile list that it took (R302). -/
def kindleWoken (s : State) : State :=
  if s.kindle.afterWake && !s.power.banked && !s.power.waking then startKindle s else s

/-- A request in COLD that lacks the locked anchor or the identifier, or the RST_N pulse due after test mode (R459), is ignored, counted and logged;
in READY with step state IDLE or HALTED, or while banked, it re-kindles, a banked block from its wake on in KINDLING with no stage begun (R303); in
READY otherwise it is refused and logged; elsewhere it is ignored and counted. -/
def kindleRequest (s : State) : State :=
  match s.kindle.state with
  | .cold =>
    if !s.kindle.anchorLocked || s.kindle.instanceId == 0xFFFFFF || s.pins.testMode || s.pins.needRstPulse then
      logEv 0x0106 unitKindle 0x1008 0 (countIgnored 0x1008 s)
    else startKindle s
  | .ready =>
    if s.power.banked then
      let s1 := { s with kindle := { s.kindle with
        state := .kindling, stage := 0, afterWake := true, requested := true, disabledTaken := disabledList s } }
      if s.power.waking then s1 else wakeBlock s1
    else if s.step.state == .idle || s.step.state == .halted then startKindle s
    else logEv 0x0106 unitKindle 0x1008 (stepCode s) s
  | _ => countIgnored 0x1008 s

/-- A host write to KX_KINDLE_CTRL. -/
def writeKindleCtrl (v : Word) (s : State) : State := if bitOf v 0 then kindleRequest s else s

/-- KINDLE_REQ (R300, R332). -/
def execKindleReq (v : Word) (s : State) : Host.Outcome State Fault Refusal := done s (hostWrite s (writeKindleCtrl v))

/-! ### Stages 2 to 4 (R305, R306, R322) -/

/-- In a stage of kindling. -/
def inStage (s : State) (n : Nat) : Bool := s.kindle.state == .kindling && s.kindle.stage == n

/-- What a rule has KX4 log with a refusal beside its code, section and index goes into a second entry of event 0x0102: bit 31 of ARG_A set,
the first value in [30:8] and the code in [7:0], and the second value in ARG_B (log 65). -/
def logDetail (code : Nat) (d : Nat × Nat) (s : State) : State :=
  logEv 0x0102 unitKindle (2 ^ 31 + d.1 % 2 ^ 23 * 256 + code % 256) d.2 s

/-- A failed check ends kindling (R335). -/
def failWith (f : KFail) (s : State) : State := withSome f.detail (kindleFail f.code f.sec f.idx s) (logDetail f.code)

/-- Apply `f` where a check passes; fail otherwise. -/
def checked (c : Option KFail) (s : State) (f : State → State) : State :=
  match c with
  | some x => failWith x s
  | none => f s

/-- The read mode chosen (R305), as the MODE code of KX_NVM_INFO. -/
def readMode (d : Sfdp) (ctrl : BitVec 4) : Option Nat :=
  if d.quad && d.quadEnableMet && !ctrl.getLsbD 1 then some 2
  else if d.dual && !ctrl.getLsbD 0 then some 1
  else if d.fast then some 0
  else none

/-- An image read that ends at `n` bytes beyond IMAGE_BASE needs 4-byte addresses. -/
def needs4 (s : State) (n : Nat) : Bool := decide (16777216 < s.kindle.imageBase.toNat + n)

/-- KX_NVM_INFO with ADDR4. -/
def withAddr4 (b : Bool) (s : State) : State :=
  { s with kindle := { s.kindle with nvmInfo := setField s.kindle.nvmInfo 61 1 (if b then 1 else 0) } }

/-- NVM_DISCOVER: the SFDP read ends and a mode is chosen, or the device is absent or unsupported (R305). DESIGN CHOICE (log 68): a device with
the SFDP signature but without a read mode that may be used is unsupported; the rule names no failure for it. -/
def discover (d : Sfdp) (s : State) : State :=
  if !d.signature then kindleFail 2 0 0 s
  else match readMode d s.kindle.nvmCtrl with
    | none => kindleFail 3 0 0 s
    | some m =>
      if needs4 s 256 && !d.addr4Table then kindleFail 3 0 0 s
      else withAddr4 (needs4 s 256) { s with kindle := { s.kindle with
        discovered := true, addr4Ok := d.addr4Table,
        nvmInfo := putField 62 2 m ||| putField 59 2 (s.kindle.nvmCtrl.toNat / 4) } }

/-- NVM_DISCOVER (R305). -/
def execNvmDiscover (d : Sfdp) (s : State) : Host.Outcome State Fault Refusal :=
  done s (if inStage s 2 && !s.kindle.discovered then discover d s else s)

/-- The header is checked (R322 steps 1 to 3), and sizes the read of the whole image (R306). -/
def takeHeaderBytes (b : List Byte) (s : State) : State :=
  checked (checkHeader b (me s) s.params.hearthOnly) s (fun t =>
    if needs4 t (imgBytes b) && !t.kindle.addr4Ok then kindleFail 3 0 0 t
    else withAddr4 (needs4 t (imgBytes b)) { t with kindle := { t.kindle with stage := 3, header := b } })

/-- IMAGE_HEADER_READ (R306). -/
def execImageHeaderRead (bytes : List Byte) (s : State) : Host.Outcome State Fault Refusal :=
  if bytes.length ≠ 256 then .fault .malformedOperand
  else done s (if inStage s 2 && s.kindle.discovered then takeHeaderBytes bytes s else s)

/-- IMAGE_READ_DONE (R306): bytes 0 to IMAGE_BYTES - 1 are in kiln memory. -/
def execImageReadDone (bytes : List Byte) (readUs : BitVec 32) (s : State) : Host.Outcome State Fault Refusal :=
  done s (if inStage s 3 && bytes.length == imgBytes s.kindle.header then
      { s with kindle := { s.kindle with stage := 4, imageBytes := bytes, nvmInfo := setField s.kindle.nvmInfo 0 32 readUs.toNat } }
    else s)

/-- AUTHENTICATE: steps 4 to 6 of R322. -/
def execAuthenticate (s : State) : Host.Outcome State Fault Refusal :=
  done s (if inStage s 4 then
      let b := s.kindle.imageBytes
      checked (firstFail [checkDirectory b, checkAuth b (anchorBytes s)]) s (fun t => { t with kindle := { t.kindle with stage := 5 } })
    else s)

/-! ### Stages 5 and 6: check, load, tiles (R323, R324) -/

/-- The member table from the system map (R314, R443). -/
def memberTable (m : List (Nat × Nat)) : SMap Word :=
  m.foldr (fun p t => smSet memberInit t p.1 (putField 62 2 1 ||| putField 38 24 p.2)) []

/-- The root placement of a group (R42): the holder of its one die, or the root record's entry. -/
def rootOf (im : Image) (g : GroupDef) : Nat :=
  if g.topLevel = 0 then ((im.sysMap.find? (fun p => some p.1 == (memberDies g).head?)).map Prod.snd).getD 0xFFFFFF
  else (placeOf im.places g.num g.topLevel (rootCoord g)).headD 0xFFFFFF

/-- The logical die index of this instance by the system map (R314). -/
def mapDie (im : Image) (inst : Nat) : Option Nat :=
  if im.hearthOnly || im.pool then none else (im.sysMap.find? (fun p => p.2 == inst)).map Prod.fst

/-- Start the training of a configured link (R325); a module that is not enabled is disabled. -/
def startLink (im : Image) (k : Nat) (s : State) : State :=
  if k < 18 then match im.ports[k]? with
    | some c =>
      let d := (im.portDepths[k]?).getD []
      setLink k (fun l => { l with depths := d, role := if c.spare then 1 else 0, state := if c.mode = 0 then .down
          else if s.kindle.keepEq.contains k then .retraining else .training }) s
    | none => s
  else match im.modules[k - 18]? with
    | some c =>
      let d := (im.moduleDepths[k - 18]?).getD []
      setLink k (fun l => { l with depths := d, state := if c.enabled then .training else .disabled }) s
    | none => s

/-- The KX4-mode ports whose MODE, LANE_RATE, WIDTH and peer the new image leaves as they were (R334). -/
def unchanged (old new : List PortCfg) (k : Nat) : Bool :=
  match old[k]?, new[k]? with
  | some a, some b => a.mode == b.mode && a.mode != 3 && a.rate == b.rate && a.width == b.width && a.peerInst == b.peerInst &&
      a.peerPort == b.peerPort
  | _, _ => false

/-- A domain that no unit in service needs rests BANKED until the next kindling (R350); every other one is requested. -/
def settleDom (d : Nat) (s : State) : State :=
  if !heldBanked s d then requestDom d s
  else match domSt s d with
    | .warm => leaveDom false d s
    | .waking => leaveDom false d s
    | .off => if implemented s d then setDom d (fun x => { x with st := .banked, ret := true }) s else s
    | _ => s

/-- The segments left without a logical tile. -/
def emptySegs (logical : List Nat) : List Nat := (List.range 16).filter (fun i => !logical.any (fun t => segOf t == i))

/-- The accepted image is loaded, the tiles are fixed and logged, and the links begin to train (R323 to R325). -/
def loadImage (s : State) : State :=
  let im := parseImage s.kindle.imageBytes
  let spares := if im.hearthOnly then [] else spareTiles s.kindle.disabledTaken im.policies.spareCounts
  let logical := if im.hearthOnly then [] else logicalTiles s.kindle.disabledTaken spares
  let members := memberTable im.sysMap
  let s1 := { s with
    image := some im,
    tables := { members := members, built := members, epochs := [], domains := im.groups.map (fun g => (g.num, (1, 0))) },
    kiln := { s.kiln with places := im.places, groups := im.groups, roots := im.groups.map (fun g => (g.num, rootOf im g)) },
    faults := { s.faults with myDie := mapDie im (me s), role := if im.pool then .pool else .none },
    kindle := { s.kindle with stage := 7, imageBytes := [], header := [], spares := tileMask spares, logical := logical, peerSeen := [],
                              keepEq := s.kindle.keepEq.filter (unchanged s.kindle.oldPorts im.ports) } }
  let s2 := if im.hearthOnly then s1 else logEv 0x0104 unitKindle logical.length spares.length s1
  let s3 := if im.hearthOnly then s2 else forEach (emptySegs logical) s2 (fun i t => logEv 0x0105 (unitSeg i) i 0 t)
  forEach blockDoms (forEach (List.range 24) s3 (startLink im)) settleDom

/-- The section that has to be read again: the first whose CRC does not match, or the one with an uncorrectable word, where that comes
before it (0 for no such word). -/
def badSection (b : List Byte) (word : Nat) : Option Nat :=
  match badCrcSection b with
  | some k => some (if 1 ≤ word ∧ word < k then word else k)
  | none => if 1 ≤ word then some word else none

/-- Section CRCs, then contents (R323, R462); a bad section or an uncorrectable word in section `word` is read again once. -/
def checkAndLoad (word : Nat) (s : State) : State :=
  match badSection s.kindle.imageBytes word with
  | some k =>
    if s.kindle.reread then kindleFail 9 k k s
    else { s with kindle := { s.kindle with stage := 3, reread := true, imageBytes := [] } }
  | none => checked (checkContents s.kindle.imageBytes (me s)) s loadImage

/-- CHECK_AND_LOAD (R323, R324). -/
def execCheckAndLoad (badWord : Fin 10) (s : State) : Host.Outcome State Fault Refusal :=
  done s (if inStage s 5 then checkAndLoad badWord.val s else s)

/-! ### Stages 7 and 8: links and trees (R325 to R327) -/

/-- A configured link has settled: UP, FAILED or gone, and on an Ethernet port every flow established or down (R327). -/
def settled (s : State) (k : Nat) : Bool :=
  match (linkAt s k).state with
  | .training => false
  | .retraining => false
  | .up => !isEth s k || (List.range (hallPeers s k).length).all (fun f => decide (2 ≤ (flowAt s k f).state)) || (linkAt s k).role == 1
  | _ => true

/-- An instance is this one, or a working link reaches it at a level. -/
def reachable (s : State) (inst level : Nat) : Bool := inst == me s || !(linkSet s inst level).isEmpty

/-- TREE with a group number or plan index. -/
def treeFail (ok : Bool) (idx : Nat) : Option KFail := chk ok ⟨0x0E, 0, idx, none⟩

/-- TREE with a group number or plan index, and what the rule has KX4 log with it (log 65). -/
def treeLog (found : Option (Nat × Nat)) (idx : Nat) : Option KFail := found.map (fun d => ⟨0x0E, 0, idx, some d⟩)

/-- This die's own TILE_COUNT for a group that lists it. -/
def tileCountOk (s : State) (g : GroupDef) : Bool :=
  match myDie s with
  | some d => (match memberIdx g d with
      | some m => ((g.members[m]?).map Prod.snd) == some (selectedTiles g s.kindle.logical).length
      | none => true)
  | none => true

/-- The first placement of a parent of this instance's nodes, or at the root's children standby hearth, that is not reachable (R42): the
node, its level above its coordinate, and the entry. -/
def placeLost (s : State) (g : GroupDef) : Option (Nat × Nat) :=
  (myNodes s g).findSome? (fun n =>
    if g.topLevel ≤ n.1 then none
    else
      let l := n.1 + 1
      let c := coordAt l n.2
      ((placesOf s g.num l c ++ (if l = g.topLevel then g.standby else [])).find? (fun i => !reachable s i l)).map
        (fun i => (l * 65536 + c, i)))

/-- Every placement and standby hearth next to this instance's nodes is reachable (R42). -/
def placesReach (s : State) (g : GroupDef) : Bool := (placeLost s g).isNone

/-- R109: the first logical tile index of a PASS source that the target die, where that is this one, lacks; with the group. -/
def passLacks (s : State) (e : PlanEntry) : Option (Nat × Nat) :=
  match entryGroup s e, myDie s with
  | some g, some d =>
    if eKind e = 7 ∧ dieOfMember g (tgtNow s e) = some d then
      ((passIndices g (argNow s e) d s.kindle.logical).find? (fun i => decide (s.kindle.logical.length ≤ i))).map (fun i => (g.num, i))
    else none
  | _, _ => none

/-- R109: a PASS source reaches its target, and the target die holds the logical tile indices of the source. -/
def passOk (s : State) (e : PlanEntry) : Bool :=
  (passLacks s e).isNone &&
  (match entryGroup s e, myDie s with
  | some g, some d =>
    eKind e != 7 || dieOfMember g (argNow s e) != some d || (match dieOfMember g (tgtNow s e) with
      | some x => reachable s (holderOf s x) (joinLevel d x)
      | none => false)
  | _, _ => true)

/-- R110: the twin of a member die is a member and reachable; an entry whose twin a RE-FORM removed runs no more (R398). -/
def mirrorOk (s : State) (e : PlanEntry) : Bool :=
  match entryGroup s e, myDie s with
  | some g, some d =>
    let twin := d ^^^ eArg e
    eKind e != 8 || (memberIdx g d).isNone || !mirrorRuns s e d || ((memberIdx g twin).isSome && reachable s (holderOf s twin) (joinLevel d twin))
  | _, _ => true

/-- R145 and R172: a position with landing content has a matching landing entry; a BARRIER lands no content. -/
def landsHaveEntry (s : State) (e : PlanEntry) : Bool :=
  eKind e == 5 || (logicalIdx s).all (fun i => !landsNow s e i || match leafSetOf s i with
    | some ls => ls.landings.any (fun w => leValid w.1 && lePlan w.1 == eIdx e)
    | none => false)

/-- R172: a position that feeds has a leaf set. -/
def feedersHaveSet (s : State) (e : PlanEntry) : Bool := (logicalIdx s).all (fun i => !feedsNow s e i || (leafSetOf s i).isSome)

/-- R166: LENGTH and CORDS_M1 agree with the kind; after a RE-FORM the cords of a GATHER follow from the new P (R398). -/
def lengthOk (s : State) (e : PlanEntry) : Bool :=
  let p := posNow s e
  let c := cordsFor e p
  (decide (c = eCordsField e) || (eKind e == 4 && s.kiln.removed.any (fun r => r.1 == eGroup e))) && decide (1 ≤ c) && decide (c ≤ 65536) &&
    match eKind e with
    | 2 => decide (ceilDiv (eRows e) (eF e) = c)
    | 4 => decide (eLen e = 32 * eCap e)
    | 5 => decide (eLen e = 0)
    | 6 => decide (eLen e = 32)
    | _ => decide (1 ≤ eLen e)

/-- What is logged of an entry that fails R166: CORDS_M1 and the derived C. -/
def lengthLog (s : State) (e : PlanEntry) : Option (Nat × Nat) :=
  if lengthOk s e then none else some (eCordsField e - 1, cordsFor e (posNow s e))

/-- An instance is a member or a placement of a group by the image. -/
def inGroup (im : Image) (g : GroupDef) (inst : Nat) : Bool :=
  (memberDies g).any (fun d => im.sysMap.any (fun p => p.1 == d && p.2 == inst)) ||
    im.places.any (fun p => p.group == g.num && p.entries.contains inst)

/-- The seal-group rule (R180). -/
def sealGroupOk (s : State) (im : Image) : Bool :=
  match groupOf im.groups (sealGroup s) with
  | none => false
  | some g =>
    (namedInsts im).all (inGroup im g) && (if im.pool then !(namedInsts im).contains (me s) else inGroup im g (me s))

/-- R249: an operation of a group that crosses a protocol 2 port stays within 32,768 cords. -/
def p2CordsOk (s : State) (im : Image) (e : PlanEntry) : Bool :=
  match entryGroup s e with
  | some g => !crossesP2 im (me s) g || decide (cordsNow s e ≤ 32768)
  | none => true

/-- R249: the hearth and the standby hearths of a group that crosses a protocol 2 port are KX4 instances: none is what a protocol 2 port of
this instance leads to, which is a KX3 die or switch (R247). -/
def p2HearthsOk (s : State) (im : Image) (g : GroupDef) : Bool :=
  !crossesP2 im (me s) g || (rootInst s g.num :: g.standby).all (fun i => !im.ports.any (fun c => c.mode == 2 && c.peerInst == i))

/-- R185: a leaf set that the tile map gives a logical tile names only entries whose group selects that tile: the first plan index that
does not. Every die carries the same leaf sets (R161), so a group of which the die is no member is not refused (log 87). -/
def strayEntry (s : State) : Option Nat :=
  match myDie s with
  | none => none
  | some _ =>
    (logicalIdx s).findSome? (fun i => match leafSetOf s i, s.kindle.logical[i]? with
      | some ls, some t =>
        ((ls.triggers.filter (fun w => decide (w ≠ (0, 0)))).map (fun w => trPlan w.1) ++
          (ls.landings.filter (fun w => leValid w.1)).map (fun w => lePlan w.1)).find? (fun p =>
          match (entryAt s p).bind (entryGroup s) with
          | some g => !g.tileSelect.getLsbD t
          | none => true)
      | _, _ => none)

/-- The checks of stage 8, in the order of R327. -/
def treeChecks (s : State) (im : Image) : Option KFail :=
  let ops := im.entries.filter (fun e => eType e == 0)
  firstFail (
    im.groups.map (fun g => treeFail (tileCountOk s g) g.num) ++
    im.groups.map (fun g => treeLog (placeLost s g) g.num) ++
    ops.map (fun e => treeLog (passLacks s e) (eIdx e)) ++
    ops.map (fun e => treeFail (passOk s e) (eIdx e)) ++
    ops.map (fun e => treeFail (mirrorOk s e) (eIdx e)) ++
    ops.map (fun e => treeFail (landsHaveEntry s e) (eIdx e)) ++
    ops.map (fun e => treeLog (lengthLog s e) (eIdx e)) ++
    [treeFail (sealGroupOk s im) (sealGroup s)] ++
    ops.map (fun e => treeFail (feedersHaveSet s e) (eIdx e)) ++
    ops.map (fun e => treeFail (p2CordsOk s im e) (eIdx e)) ++
    im.groups.map (fun g => treeFail (p2HearthsOk s im g) g.num) ++
    [(strayEntry s).bind (fun p => treeFail false p)])

/-- The tree is built: KINDLED, and time acquisition runs (R303, R328). -/
def enterKindled (s : State) : State := settleRole { s with kindle := { s.kindle with state := .kindled, stage := 9, keepEq := [] } }

/-- TREE_BUILD (R327): once every configured link has settled. -/
def execTreeBuild (s : State) : Host.Outcome State Fault Refusal :=
  done s (match s.image with
    | some im => if inStage s 7 && (List.range 24).all (settled s) then checked (treeChecks s im) s enterKindled else s
    | none => s)

/-! ### Stage 10 (R329) -/

/-- The units and banks of the self-test that are in service. -/
def selfFails (working failed : BitVec 8) : List Nat := (List.range 8).filter (fun k => working.getLsbD k && failed.getLsbD k)

/-- KILN_INIT_SELF_TEST (R329): units and banks that fail are retired and logged; with fewer than 4 of either, or a failed segment
combiner, kindling fails; otherwise the instance is READY and IDLE. -/
def selfTest (r : SelfTest) (s : State) : State :=
  let us := selfFails s.kiln.unitWorking r.failedUnits
  let bs := selfFails s.kiln.bankWorking r.badBanks
  let segs := if s.params.hearthOnly then [] else (List.range 16).filter (fun i => r.failedSegments.getLsbD i)
  let s1 := { s with kiln := { s.kiln with unitWorking := s.kiln.unitWorking &&& ~~~r.failedUnits,
                                           bankWorking := s.kiln.bankWorking &&& ~~~r.badBanks } }
  let s2 := forEach us s1 (fun k t => leaveDom false (17 + k) (logEv 0x0107 unitKindle k 0 t))
  let s3 := forEach bs s2 (fun b t => leaveDom false (25 + b) (logEv 0x0107 unitKindle (0x20 + b) 0 t))
  if popcount8 s3.kiln.unitWorking < 4 then kindleFail 0x0D 0 (us.headD 0) s3
  else if popcount8 s3.kiln.bankWorking < 4 then kindleFail 0x0D 0 (0x20 + bs.headD 0) s3
  else match segs with
    | i :: _ => kindleFail 0x0D 0 (0x10 + i) s3
    | [] =>
      let im := s3.image.map (fun x => (x.microcode.toNat, x.buildTag.toNat))
      let s4 := { s3 with kindle := { s3.kindle with state := .ready, stage := 0 }, step := { s3.step with state := .idle } }
      bankIfPending (logEv 0x0103 unitKindle (im.getD (0, 0)).1 (im.getD (0, 0)).2 s4)

/-- KILN_INIT_SELF_TEST (R329). -/
def execKilnInitSelfTest (r : SelfTest) (s : State) : Host.Outcome State Fault Refusal :=
  done s (if s.kindle.state == .locked then selfTest r s else s)

/-- A link or hall flow that has not settled within the bound of stage 7 fails (R325, R326). -/
def failUnsettled (k : Nat) (s : State) : State :=
  match (linkAt s k).state with
  | .training => linkFails k (if s.kindle.peerSeen.contains k then 1 else 5) s
  | .retraining => linkFails k (if s.kindle.peerSeen.contains k then 1 else 5) s
  | .up => if isEth s k then forEach ((linkAt s k).flows.filter (fun p => p.2.state == 1)) s (fun p t => flowFails k p.1 1 t) else s
  | _ => s

/-- KINDLE_STAGE_TIMEOUT (R304): a stage that outlasts its bound fails. The rule names no code for most stages; see log 40. -/
def stageTimeout (s : State) : State :=
  match s.kindle.state, s.kindle.stage with
  | .kindling, 1 => kindleFail 1 0 ((stage1Doms.find? (fun d => !warm s d)).getD 0) s
  | .kindling, 2 => kindleFail 2 0 0 s
  | .kindling, 3 => kindleFail 9 0 0 s
  | .kindling, 4 => kindleFail 8 10 0 s
  | .kindling, 5 => kindleFail 0x0C 0 0 s
  | .kindling, 7 => if (List.range 24).all (settled s) then kindleFail 0x0E 0 0 s else forEach (List.range 24) s failUnsettled
  | .locked, _ => kindleFail 0x0D 0 0 s
  | _, _ => s

/-- KINDLE_STAGE_TIMEOUT (R304). -/
def execKindleStageTimeout (s : State) : Host.Outcome State Fault Refusal := done s (stageTimeout s)

end Sys2Proof.Machine
end

