-- ==== Sys2Proof/Machine/Faults.lean ====
section
/-! DEFINITION. Faults.lean: failed dies, recovery holds, splices by the host, placement changes, hearth succession, stand-ins,
exhaustion and RE-FORM (chapter 14, R44, R45, R50, R202). -/

namespace Sys2Proof.Machine

/-! ### Taking a change message (R381) -/

/-- Take a PLACEMENT_CHANGE message of a kind. -/
def takeChange (i kind : Nat) (f : Arrival → Msg → State → State) (s : State) : State :=
  takeMgmt i 2 (fun a m t => if pcKind m = kind then f a m t else s) s

/-- Take a flooded kind, in CHANGE_SEQ order. -/
def takeFlooded (i kind : Nat) (f : Msg → State → State) (s : State) : State :=
  takeChange i kind (fun a m t => applyFlooded a m (f m) t) s

/-! ### Epochs and groups of a die (R382) -/

/-- Advance the epoch of each group by 1, modulo 2^16. -/
def advance (gs : List GroupDef) (e : SMap (BitVec 16)) : SMap (BitVec 16) :=
  gs.foldl (fun m g => smSet 0 m g.num (smGet 0 m g.num + 1)) e

/-- The lowest-numbered of some groups. -/
def lowestGroup (gs : List GroupDef) : Option Nat := (sortNat (gs.map (fun g => g.num))).head?

/-- NEW_EPOCH and EPOCH_CRC of a change that advances the groups of a die. -/
def epochsAfter (s : State) (d : Nat) : Nat × BitVec 32 :=
  let gs := groupsHolding s d
  let e := advance gs s.tables.epochs
  (match lowestGroup gs with
    | some g => (smGet 0 e g).toNat
    | none => 0, epochCrc e)

/-- An instance applies the epoch advance of a change and compares NEW_EPOCH and EPOCH_CRC with its own epochs (R382). -/
def applyEpochs (d newEpoch crc : Nat) (s : State) : State :=
  let gs := groupsHolding s d
  let s1 := { s with tables := { s.tables with epochs := advance gs s.tables.epochs } }
  let own := match lowestGroup gs with
    | some g => epochOf s1 g
    | none => 0
  if own = newEpoch ∧ (epochCrc s1.tables.epochs).toNat = crc then s1
  else otherSeen (logEv 0x080F unitPE 3 d { s1 with faults := { s1.faults with epochBad := true } })

/-! ### Recovery holds (R383 to R386) -/

/-- Code of a hold kind in event 0x080E; the manual gives no codes (log 41). -/
def holdCode (k : HoldKind) : Nat :=
  match k with
  | .splice => 1
  | .standin => 2
  | .own => 3
  | .reform => 4

/-- Every skew and smoulder timer pauses (R385). -/
def pauseTimers (m : Msg) (s : State) : State :=
  let s1 := logEv 0x080D unitPE 3 (pcDie m) s
  if s1.faults.paused then s1
  else { s1 with faults := { s1.faults with paused := true, pausedSince := s1.time.tick, pausedBy := pcDie m } }

/-- The timers resume with their counts (R385); no stand-in is awaited any more. -/
def resumeTimers (m : Msg) (s : State) : State :=
  let s1 := logEv 0x080D unitPE 4 (pcDie m) s
  { s1 with faults := { s1.faults with paused := false, pausedTicks := pausedTotal s1, restoring := [], reforming := [], held := false,
                                       offers := s1.faults.offers.filter (fun o => !s1.faults.restoring.contains o.die) } }

/-- Flood HOLD_OPEN. -/
def floodOpen (d : Nat) (s : State) : State :=
  floodChange (fun q => mkChange s 0 0xC 0 false false q d 0 0 0xFFFFFF 0xFFFFFF 0 0 0) pauseTimers s

/-- Flood HOLD_CLOSED. -/
def floodClosed (d : Nat) (s : State) : State :=
  floodChange (fun q => mkChange s 0 0xD 0 false false q d 0 0 0xFFFFFF 0xFFFFFF 0 0 0) resumeTimers s

/-- The coordinator notes a hold that an instance has opened for an index; with the first one it floods HOLD_OPEN (R385). -/
def addHold (d inst : Nat) (k : HoldKind) (s : State) : State :=
  if s.faults.holds.any (fun h => h.die == d && h.inst == inst && h.kind == k) then s
  else
    let s1 := { s with faults := { s.faults with
      holds := s.faults.holds ++ [{ die := d, inst := inst, kind := k, since := s.time.tick.toNat }] } }
    if s.faults.holds.isEmpty then floodOpen d s1 else s1

/-- The coordinator closes holds; with the last one it floods HOLD_CLOSED, for the index `d`, and issues the broadcast that it has decided
(R384, R385). -/
def closeHolds (d : Nat) (p : HoldRec → Bool) (s : State) : State :=
  let left := s.faults.holds.filter (fun h => !p h)
  if left.length = s.faults.holds.length then s
  else
    let s1 := { s with faults := { s.faults with holds := left } }
    if left.isEmpty then issueBroadcast (floodClosed d s1) else s1

/-- The coordinator opens a hold of its own (R383, R399). -/
def ownHold (d : Nat) (k : HoldKind) (s : State) : State := addHold d 0xFFFFFF k (logEv 0x080D unitPE 1 d s)

/-- A hold that an instance has opened itself: for its splice, or as a stand-in. -/
def heldBy (inst : Nat) (h : HoldRec) : Bool := h.inst == inst && (h.kind == .splice || h.kind == .standin)

/-- The hold for an index that the coordinator opened itself with the index's DIE_FAILED. -/
def ownFor (d : Nat) (h : HoldRec) : Bool := h.die == d && h.kind == .own

/-- A hold that stands, at a new coordinator, for the ones that it has not been told of yet (log 44). -/
def unknownHold (h : HoldRec) : Bool := h.inst == 0xFFFFFF && h.kind == .splice

/-- The coordinator raises an unclean reason on the attempt as an early request would (R391, R405); in ARMED the coming attempt raises it
at its open. -/
def raiseAtRoot (bits : BitVec 32) (s : State) : State :=
  if running s then
    let s1 := { s with step := { s.step with unclean := s.step.unclean ||| bits } }
    decide_ (rowNow s1) true s1
  else if s.step.state = .armed then { s with step := { s.step with uncleanNext := s.step.uncleanNext ||| bits } }
  else s

/-- EXHAUST_HALT is set and HALT decided (R386, R397, R398). -/
def haltNow (s : State) : State :=
  let s1 := { s with step := { s.step with exhaustHalt := true } }
  if !running s then s1
  else if isCoordinator s then decide_ (rowNow s1) true s1
  else sendEarly s1

/-- The coordinator receives HOLD (R383): the hold is noted, a stand-in's closes the coordinator's own, and HOLD_ACK answers. -/
def holdIn (m : Msg) (s : State) : State :=
  let d := pcDie m
  let k : HoldKind := if s.faults.restoring.contains d && holderOf s d == mSrc m then .standin else .splice
  let s1 := addHold d (mSrc m) k s
  let s2 := closeHolds d (fun h => unknownHold h || (k == .standin && ownFor d h)) s1
  route (mSrc m) (mkChange s2 (mSrc m) 0xA 0 false false 0 d 0 0 (mSrc m) (mSrc m) 0 0 0) s2

/-- HOLD_ACK: a die that spliced in OPEN or DONE now sends its early request (R383). -/
def holdAcked (s : State) : State :=
  if s.faults.awaitAck then
    let s1 := { s with faults := { s.faults with awaitAck := false } }
    if running s1 && s1.step.unclean &&& uSplice != 0 then sendEarly s1 else s1
  else s

/-- HOLD_ACK. -/
def execHoldAck (i : Nat) (s : State) : Host.Outcome State Fault Refusal := done s (takeChange i 0xA (fun _ _ t => holdAcked t) s)

/-- The coordinator receives HOLD_RELEASE: the sender's hold closes, and a stand-in procedure for its index is over (R384). -/
def releaseIn (m : Msg) (s : State) : State :=
  let d := pcDie m
  let standin := s.faults.holds.any (fun h => h.inst == mSrc m && h.die == d && h.kind == .standin)
  let s1 := if standin then { s with faults := { s.faults with
      restoring := s.faults.restoring.filter (· != d), offers := s.faults.offers.filter (fun o => o.die != d) } } else s
  closeHolds d (fun h => heldBy (mSrc m) h || unknownHold h) s1

/-- HOLD_OPEN (R385). -/
def execHoldOpen (i : Nat) (s : State) : Host.Outcome State Fault Refusal := done s (takeFlooded i 0xC pauseTimers s)

/-- HOLD_CLOSED (R385). -/
def execHoldClosed (i : Nat) (s : State) : Host.Outcome State Fault Refusal := done s (takeFlooded i 0xD resumeTimers s)

/-- A hold has been open for RECOVERY_LIMIT seconds of the coordinator's tick (R386). -/
def holdOver (s : State) (h : HoldRec) : Bool := decide (h.since + s.faults.recoveryLimit.toNat * 100000000 ≤ s.time.tick.toNat)

/-- RECOVERY_TIMEOUT (R386): a hold has been open for RECOVERY_LIMIT; HALT is decided and the hold is no longer waited for (log 42). -/
def recoveryTimeout (d : Nat) (s : State) : State :=
  match s.faults.holds.find? (fun h => h.die == d && holdOver s h) with
  | none => s
  | some h =>
    closeHolds d (fun x => x == h) (haltNow (setPend 0x40 (logEv 0x080E unitPE d (holdCode h.kind) s)))

/-- RECOVERY_TIMEOUT. -/
def execRecoveryTimeout (die : BitVec 16) (s : State) : Host.Outcome State Fault Refusal :=
  done s (onlyIf (isCoordinator s && !s.faults.dieFailed) s (recoveryTimeout die.toNat))

/-! ### The host's recovery register (R379, R383, R387) -/

/-- RECOVERY_DONE (R383): the die's own hold is released when its conditions are met; the coordinator's RE-FORM hold closes. -/
def recoveryDone (s : State) : State :=
  let s1 := if s.faults.hold.isSome then tryRelease true { s with faults := { s.faults with hostDone := true } } else s
  forEach ((s.faults.holds.filter (fun h => h.kind == .reform)).map (fun h => h.die)) s1 (fun d t =>
    closeHolds d (fun h => h.die == d && h.kind == .reform) (logEv 0x080D unitPE 2 d t))

/-- SPLICE_REQ (R387): a request that splices nothing is ignored and counted. -/
def spliceRequest (s : State) : State := (spliceTile s.faults.spliceTile.toNat s).getD (countIgnored 0x4110 s)

/-- FAIL_DIE_REQ (R379). -/
def failRequest (s : State) : State := if isReady s then dieFail 8 s else countIgnored 0x4110 s

/-- A host write to KX_RECOVERY_CTRL. -/
def writeRecovery (v : Word) (s : State) : State :=
  let s1 := { s with faults := { s.faults with spliceTile := BitVec.ofNat 10 (fieldOf v 51 10),
                                               recoveryLimit := if fieldOf v 35 16 = 0 then 60 else BitVec.ofNat 16 (fieldOf v 35 16) } }
  onlyIf (bitOf v 61) (onlyIf (bitOf v 62) (onlyIf (bitOf v 63) s1 recoveryDone) spliceRequest) failRequest

/-- RECOVERY_DONE. -/
def execRecoveryDone (v : Word) (s : State) : Host.Outcome State Fault Refusal := done s (hostWrite s (writeRecovery v))

/-- SPLICE_REQ. -/
def execSpliceReq (v : Word) (s : State) : Host.Outcome State Fault Refusal := done s (hostWrite s (writeRecovery v))

/-- FAIL_DIE_REQ. -/
def execFailDieReq (v : Word) (s : State) : Host.Outcome State Fault Refusal := done s (hostWrite s (writeRecovery v))

/-- A KX_SPLICE write is valid (R390): in IDLE before the first launch, VALID, for a position still on its kindling tile, naming an idle
spare. -/
def spliceValid (v : Word) (s : State) : Bool :=
  let pos := fieldOf v 52 10
  s.step.state == .idle && s.step.neverLaunched && !s.params.hearthOnly && bitOf v 63 &&
    (match s.kindle.logical[pos]? with
      | some t => physOf s pos == some t
      | none => false) && (idleSpares s).contains (fieldOf v 42 10)

/-- A host write to KX_SPLICE[k] (R390): the splice stands at once, with no hold and no replay. -/
def writeSplice (k : Nat) (v : Word) (s : State) : State :=
  if spliceValid v s then
    let pos := fieldOf v 52 10
    let spare := fieldOf v 42 10
    let t := moveTile pos ((s.kindle.logical[pos]?).getD 0) spare s
    { t with faults := { t.faults with
        splices := smSet 0 s.faults.splices k (bitAt 63 true ||| putField 52 10 pos ||| putField 42 10 spare) } }
  else countIgnored (0x4400 + 8 * k) s

/-- SPLICE_WRITE (R390). -/
def execSpliceWrite (k : Fin 128) (v : Word) (s : State) : Host.Outcome State Fault Refusal := done s (hostWrite s (writeSplice k.val v))

/-- FAILED_LINK_SILENCE (R379): a failed instance stops signalling on every port and module. -/
def silenceLinks (s : State) : State :=
  { s with faults := { s.faults with silenced := true },
           links := s.links.map (fun p => (p.1, { quietLink p.2 with state := .failed })) }

/-- FAILED_LINK_SILENCE. -/
def execFailedLinkSilence (s : State) : Host.Outcome State Fault Refusal :=
  done s (onlyIf (s.faults.dieFailed && !s.faults.silenced) s silenceLinks)

/-! ### Working placement lists (R43, R44) -/

/-- The record of a node in a working list names an instance. -/
def listed (s : State) (g l coord inst : Nat) : Bool := (placesOf s g l coord).contains inst

/-- Change the entries of a node's record. -/
def setPlaces (g l coord : Nat) (f : List Nat → List Nat) (s : State) : State :=
  { s with kiln := { s.kiln with places := s.kiln.places.map (fun p =>
      if p.group = g ∧ p.level = l ∧ p.coord = coord then { p with entries := f p.entries } else p) } }

/-- Send again, to the node's present placements, the results that went to a placement now gone and whose finished cord has not come down
(R44). `old` is the working list as it was. DESIGN CHOICE (log 67): R44 speaks of the cords of the failed placement alone, while the new k
moves other indices too; what a placement that still works has accepted of an index that is now another's is not sent again. -/
def resendPartials (g : GroupDef) (l coord inst : Nat) (old : List PlaceRec) (s : State) : State :=
  if !running s || l == 0 then s
  else
    let xs := s.kiln.nodes.filter (fun x => decide (x.node.stage.val = l) && coordAt l x.node.coord.toNat == coord &&
      ((entryAt s x.plan).map eGroup == some g.num))
    forEach xs s (fun x t =>
      let t1 := forEach (x.partials.filter (fun p => siteOf old g.num l coord p.1 == some inst && !x.copied.contains p.1)) t (fun p u =>
        match siteOf u.kiln.places g.num l coord p.1 with
        | none => u
        | some tgt =>
          let c := retarget p.2 coord
          if tgt = me u then deliver { src := .self l, vc := 0, body := .cord c } u
          else sendInst (kilnCode u p.1) tgt l 0 c true u)
      flushPlan x.plan t1)

/-- Give a node instance in mid-step the claim `full` (R202): from free buffers, then from the recovery reserve; short of it, the window shrinks
to ⌊available ÷ (n + 1)⌋ and RECOVERY_SHORT asks for an immediate REPLAY. -/
def drawClaim (full : Nat) (x : NodeInst) (s : State) : State :=
  let free := freeClaimable s
  let spare := policy s (fun p => p.recoveryReserve) 130 - s.kiln.recoveryUsed
  let fits := decide (full ≤ free + spare)
  let r := if fits then full - free else spare
  let w := if fits then x.win else (free + spare) / (x.n + 1)
  let t := modNode x.plan x.node (fun y => { y with
    win := w, claim := if fits then full else w * (x.n + 1), admitted := true, fromRecovery := r })
    { s with kiln := { s.kiln with recoveryUsed := s.kiln.recoveryUsed + r } }
  if fits then t else raiseUnclean uRecoveryShort t

/-- The indices that an instance computes at a node under the present working lists and did not under `old`. -/
def newlyHandled (old : List PlaceRec) (x : NodeInst) (s : State) : List Nat :=
  let was := { s with kiln := { s.kiln with places := old } }
  (List.range x.cords).filter (fun c => handles s x c && !handles was x c && !x.closed.contains c)

/-- What a placement computes at a node follows the working list: it takes over what was another's, with a new claim where its own has closed
(R44, R202); the lowest open index is taken again and advertised; and an instance that left drops its node instances and their buffers. -/
def refreshNode (g : GroupDef) (l coord : Nat) (old : List PlaceRec) (s : State) : State :=
  let mine := s.kiln.nodes.filter (fun x => x.node == nodeId l coord && ((entryAt s x.plan).map eGroup == some g.num))
  if listed s g.num l coord (me s) then
    forEach mine s (fun x t =>
      let more := newlyHandled old x t
      let y := { x with taken := x.taken ++ more.filter (fun c => !x.taken.contains c) }
      let lo := lowestOf t y
      let full := ((entryAt t x.plan).map (fun e => (mkNode t e g x.node).claim)).getD 0
      let t1 := modNode x.plan x.node (fun _ => moveLow t lo y) t
      let t2 := if !more.isEmpty && running t && allClosed x && decide (x.claim < full) then drawClaim full (moveLow t lo y) t1 else t1
      if lo = x.lowest then t2 else advertise y lo t2)
  else
    let s0 := forEach (mine.flatMap (fun x => x.opens.flatMap (fun o => o.ops))) s (fun p t => giveBuf p.buf t)
    let s1 := forEach (mine.flatMap (fun x => x.results)) s0 (fun r t => giveBuf r.2 t)
    { s1 with kiln := { s1.kiln with nodes := s1.kiln.nodes.filter (fun x => !mine.contains x) } }

/-- An instance leaves the working list of a node (R44): logged, and the children send again what only it had. -/
def unlist (g : GroupDef) (l coord inst : Nat) (s : State) : State :=
  if listed s g.num l coord inst then
    let s1 := logEv 0x080A unitPE coord inst (setPlaces g.num l coord (fun e => e.filter (· != inst)) s)
    resendPartials g l coord inst s.kiln.places (refreshNode g l coord s.kiln.places s1)
  else s

/-- An applied ENTRY_FAILED. -/
def applyEntry (m : Msg) (s : State) : State :=
  match groupNow s (pcGroup m) with
  | some g => unlist g (pcLevel m) (pcNode m) (pcOld m) s
  | none => s

/-- The coordinator floods ENTRY_FAILED for an entry that still stands. -/
def floodEntry (g l coord inst : Nat) (s : State) : State :=
  if listed s g l coord inst then
    floodChange (fun q => mkChange s 0 1 g false false q 0 coord l inst 0xFFFFFF 0 0 0) applyEntry s
  else s

/-! ### A node instance that opens in mid-step (R202) -/

/-- Open a node instance late, with a claim as `drawClaim` gives it: every index is one that another placement may have finished (R45). -/
def openLate (e : PlanEntry) (g : GroupDef) (n : NodeId) (s : State) : State :=
  if (findNode s (eIdx e) n).isSome then s
  else
    let x0 := mkNode s e g n
    let x1 := { x0 with taken := (List.range x0.cords).filter (handles s x0) }
    let x := { x1 with lowest := lowestOf s x1, lows := [lowNow s (lowestOf s x1)] }
    advertise x x.lowest (drawClaim x.claim x { s with kiln := { s.kiln with nodes := s.kiln.nodes ++ [x] } })

/-! ### Stand-in offers (R391 to R393) -/

/-- A flooded STANDIN_OFFER as every instance notes it, so that a new coordinator can restart it (R380). -/
def noteOffer (m : Msg) (s : State) : State :=
  let d := pcDie m
  let prev := s.faults.offers.find? (fun o => o.die == d)
  let o : Offer := { die := d, old := BitVec.ofNat 24 (pcOld m), next := (prev.map (fun x => x.next)).getD 0,
                     cand := some (BitVec.ofNat 24 (pcNew m)), mapCrc := BitVec.ofNat 32 (fieldOf m.m5 32 32),
                     since := s.time.tick.toNat }
  { s with faults := { s.faults with offers := s.faults.offers.filter (fun x => x.die != d) ++ [o] } }

/-- A working link to an instance at a level; a relayed one counts as one L1 link (R212). -/
def directLink (s : State) (inst level : Nat) : Bool := !(linkSet s inst level).isEmpty

/-- The links of this instance are UP (R392): every port and module that is configured and wired. -/
def linksUp (s : State) : Bool :=
  (List.range 24).all (fun k => linkUp s k ||
    (if k < 18 then (portCfg s k).all (fun c => c.mode == 0) || (linkAt s k).role == 3 else (modCfg s (k - 18)).all (fun c => !c.enabled)))

/-- The dies that index `d` exchanges PASS and MIRROR cords with (R393). -/
def peersOf (s : State) (d : Nat) : List Nat :=
  (((planEntries s).filter (fun e => eType e == 0)).flatMap (fun e => match entryGroup s e with
    | none => []
    | some g =>
      if (memberIdx g d).isNone then []
      else if eKind e = 7 then
        (match dieOfMember g (argNow s e), dieOfMember g (tgtNow s e) with
          | some a, some b => if a = d then [b] else if b = d then [a] else []
          | _, _ => [])
      else if eKind e = 8 then (if (memberIdx g (d ^^^ eArg e)).isSome then [d ^^^ eArg e] else [])
      else [])).eraseDups.filter (· != d)

/-- The candidate's conditions (R392, R393): the pool state with its links UP, an equal disabled-tile map, a working direct link to every placement
of the index's L1 node, to every PASS peer and to every twin. -/
def acceptsOffer (d crc : Nat) (s : State) : Bool :=
  s.faults.role == .pool && isReady s && s.step.state == .idle && !s.faults.dieFailed && countsLocked s && linksUp s &&
    decide ((mapCrc s).toNat = crc) &&
    (groupsHolding s d).all (fun g => (placesOf s g.num 1 (coordAt 1 d)).all (fun i => directLink s i 1)) &&
    (peersOf s d).all (fun p => directLink s (holderOf s p) (joinLevel d p))

/-- An applied STANDIN_OFFER: the candidate it names accepts or declines (R393). -/
def applyOffer (m : Msg) (s : State) : State :=
  let s1 := noteOffer m s
  if pcNew m ≠ me s then s1
  else
    let d := pcDie m
    let kind := if acceptsOffer d (fieldOf m.m5 32 32) s then 5 else 6
    let co := coordinator s
    route co (mkChange s co kind 0 false false 0 d 0 0 (pcOld m) (me s) 0 0 0) s1

/-- STANDIN_OFFER. -/
def execStandinOffer (i : Nat) (s : State) : Host.Outcome State Fault Refusal := done s (takeFlooded i 4 applyOffer s)

/-! ### STANDIN_COMMIT and RESTORE (R394 to R396) -/

/-- An entry's last active step before step `n`: the largest s below n with s mod (PERIOD_M1 + 1) = PHASE (R395). -/
def lastActive (e : PlanEntry) (n : Nat) : Option Nat :=
  if n ≤ ePhase e then none else some (n - 1 - (n - 1 - ePhase e) % ePeriod e)

/-- The RESTORE reads of a tile of the twin for one MIRROR entry: every cord of its position, out of the mirror bank of the entry's last
active step (R395). -/
def restoreReads (s : State) (e : PlanEntry) (d i step : Nat) : List ReadCtx :=
  match leafSetOf s i, positionNow s e i with
  | some ls, some k =>
    (match ls.landings.find? (fun w => leValid w.1 && lePlan w.1 == eIdx e) with
      | none => []
      | some w =>
        let r := landRange e (posNow s e) k
        (List.range r.2).map (fun j =>
          let c := r.1 + j
          let rows := rowsOfCord e (posNow s e) c
          let base := (landAddrs s e w.1 w.2 k step c).2
          { firing := { slot := 0, plan := eIdx e, cord := c, kind := .data },
            want := rowBeats base (rowPitch (eMl e) (eFmt e)) rows (2 ^ rows - 1), wait := [], got := [],
            mask := BitVec.ofNat 256 (2 ^ rows - 1), maskKnown := false, rows := rows, base := base,
            restore := some (BitVec.ofNat 48 step, d), stalled := false, void := false }))
  | _, _ => []

/-- The twin's plan engine commands the RESTORE cords of an index, for a change made in step `n` (R395). -/
def commandRestore (d n : Nat) (s : State) : State :=
  forEach ((mirrorsOf s d).filter (fun e => myDie s == some (d ^^^ eArg e))) s (fun e t =>
    match lastActive e n with
    | none => t
    | some step => forEach ((logicalIdx t).filter (fun i => landsNow t e i)) t (fun i u =>
        match physOf u i with
        | none => u
        | some ph => requestDoms [segOf ph + 1] (setLeaf ph (fun l => { l with restoreQ := l.restoreQ ++ restoreReads u e d i step }) u)))

/-- The RESTORE cords that a stand-in for index `d` expects (R396). -/
def restoreExpected (d n : Nat) (s : State) : List (Nat × Nat × Nat) :=
  (mirrorsOf s d).flatMap (fun e => match lastActive e n with
    | none => []
    | some _ => ((logicalIdx s).filter (fun i => feedsNow s e i)).flatMap (fun i =>
        (List.range (cordsNow s e)).map (fun c => (eIdx e, c, i))))

/-- This instance takes a logical index as a stand-in (R383, R396): it stays in IDLE, awaits its RESTORE cords and opens its hold. -/
def standIn (m : Msg) (s : State) : State :=
  let d := pcDie m
  let n := fieldOf m.m2 16 48
  let s1 := { s with faults := { s.faults with myDie := some d, role := .restoring, standinIndex := BitVec.ofNat 16 d,
                                               commit := some (BitVec.ofNat 48 n, m.m5, m.m6) } }
  let due := restoreExpected d n s1
  let segs := sortedSet ((due.filterMap (fun x => physOf s1 x.2.2)).map (fun t => segOf t + 1))
  openHold .standin (requestDoms segs { s1 with faults := { s1.faults with restoreDue := due } })

/-- An applied STANDIN_COMMIT (R382, R394, R395): the membership record and the epochs change; the stand-in takes the index, unless it has
failed meanwhile (R379), and the twin starts its RESTORE. -/
def applyCommit (m : Msg) (s : State) : State :=
  let d := pcDie m
  let w := putField 62 2 1 ||| putField 38 24 (pcNew m)
  let s1 := { s with
    tables := { s.tables with members := smSet memberInit s.tables.members d w, built := smSet memberInit s.tables.built d w },
    faults := { s.faults with pending := s.faults.pending ||| 0x04,
                              myDie := if s.faults.myDie = some d then none else s.faults.myDie,
                              restoring := if s.faults.restoring.contains d then s.faults.restoring else s.faults.restoring ++ [d] } }
  let s2 := logEv 0x0803 unitPE d (pcNew m) (applyEpochs d (pcEpoch m) (fieldOf m.m6 32 32) (noteGone (pcOld m) s1))
  commandRestore d (fieldOf m.m2 16 48) (if pcNew m = me s ∧ !s.faults.dieFailed then standIn m s2 else s2)

/-- STANDIN_COMMIT. -/
def execStandinCommit (i : Nat) (s : State) : Host.Outcome State Fault Refusal := done s (takeFlooded i 7 applyCommit s)

/-- The coordinator floods STANDIN_COMMIT with its four check values (R394). -/
def floodCommit (o : Offer) (cand : Nat) (s : State) : State :=
  let ea := epochsAfter s o.die
  let rec_ := recordCrc (smSet memberInit s.tables.members o.die (putField 62 2 1 ||| putField 38 24 cand))
  floodChange (fun q => mkChange s 0 7 0 true false q o.die 0 0 o.old.toNat cand ea.1
    (putField 32 32 o.mapCrc.toNat ||| putField 0 32 (seedCrc s).toNat)
    (putField 32 32 ea.2.toNat ||| putField 0 32 rec_.toNat)) applyCommit s

/-- The coordinator receives an accept of the candidate that it is offering to and that has not failed since (R379, R394). -/
def acceptIn (m : Msg) (s : State) : State :=
  match s.faults.offers.find? (fun o => o.die == pcDie m) with
  | some o => if o.cand = some (BitVec.ofNat 24 (pcNew m)) && !s.faults.restoring.contains o.die &&
      !s.faults.gone.contains (pcNew m) then floodCommit o (pcNew m) s else s
  | none => s

/-! ### RE-FORM (R50, R398, R399) -/

/-- A stand-in whose index is removed holds none any more: its part and its hold are over. -/
def endStandin (d : Nat) (s : State) : State :=
  if (s.faults.role = .restoring ∨ s.faults.role = .holds) ∧ myDie s = some d then
    { s with faults := { s.faults with role := .none, restoreDue := [], commit := none,
                                       hold := if s.faults.hold = some .standin then none else s.faults.hold } }
  else s

/-- An applied REFORM (R382, R399). -/
def applyReform (m : Msg) (s : State) : State :=
  let s1 := endStandin (pcDie m) { s with faults := { s.faults with reforming := s.faults.reforming ++ [pcDie m] } }
  setPend 0x10 (reformIndex (pcDie m) (applyEpochs (pcDie m) (pcEpoch m) (fieldOf m.m6 32 32) (noteGone (pcOld m) s1)))

/-- REFORM. -/
def execReform (i : Nat) (s : State) : Host.Outcome State Fault Refusal := done s (takeFlooded i 8 applyReform s)

/-- The seal-group rule of R180 over the lists in force: every member, placement and standby hearth that still works is a member or a placement
of the seal group (R327, R398). -/
def sealGroupHolds (s : State) : Bool :=
  match groupNow s (sealGroup s) with
  | none => false
  | some g =>
    let insts := s.kiln.groups.flatMap (fun x => (memberDies x).map (holderOf s) ++ x.standby) ++ s.kiln.places.flatMap (fun p => p.entries)
    (insts.filter (fun i => !s.faults.gone.contains i)).all (fun i => (memberDies g).any (fun d => holderOf s d == i) ||
      s.kiln.places.any (fun p => p.group == g.num && p.entries.contains i))

/-- The plan index that a RE-FORM of an index fails on, or 0xFFFF where a group's own check fails (R398). -/
def reformBad (d : Nat) (s : State) : Option Nat :=
  let gs := groupsHolding s d
  let t := removeIndex d s
  let ops := (planEntries s).filter (fun e => eType e == 0 && gs.any (fun g => g.num == eGroup e))
  let names := fun (e : PlanEntry) => match entryGroup s e with
    | some g => (match memberIdx g d with
        | some j => (decide (eKind e = 1 ∨ eKind e = 3 ∨ eKind e = 7) && argNow s e == j) || (eKind e == 7 && tgtNow s e == j)
        | none => false)
    | none => false
  let p2 := fun (e : PlanEntry) => match t.image with
    | some im => p2CordsOk t im e
    | none => true
  let small := fun (e : PlanEntry) => match entryGroup s e with
    | some g => decide (g.members.length < 3)
    | none => false
  match ops.find? (fun e => small e || names e || !passOk t e || !mirrorOk t e || !landsHaveEntry t e || !lengthOk t e ||
      !feedersHaveSet t e || !p2 e) with
  | some e => some (eIdx e)
  | none =>
    if !sealGroupHolds t || gs.any (fun g => decide (g.members.length < 3) || !tileCountOk t (dropMember d g) || !placesReach t (dropMember d g) ||
        !((t.image.map (fun im => p2HearthsOk t im (dropMember d g))).getD true)) then some 0xFFFF
    else none

/-- The coordinator floods REFORM. -/
def floodReform (d : Nat) (s : State) : State :=
  let ea := epochsAfter s d
  floodChange (fun q => mkChange s 0 8 0 true false q d 0 0 (holderOf s d) 0xFFFFFF ea.1 0 (putField 32 32 ea.2.toNat)) applyReform s

/-- Exhaustion (R397, R398), which closes the coordinator's own hold and that of a stand-in of the index: HALT where a group that holds the index
has EXHAUST HALT or a check fails, else RE-FORM under a hold of the coordinator's. A failed check is logged with its plan index as the tree build's
failure would be (log 43). -/
def exhaust (d : Nat) (s : State) : State :=
  let s1 := { s with faults := { s.faults with offers := s.faults.offers.filter (fun o => o.die != d),
                                               restoring := s.faults.restoring.filter (· != d) } }
  let own := fun (h : HoldRec) => h.die == d && (h.kind == .own || h.kind == .standin)
  if fieldOf (memberWord s d) 62 2 = 2 then closeHolds d own s1
  else if (groupsHolding s d).any (fun g => g.exhaustHalt) then closeHolds d own (haltNow s1)
  else match reformBad d s1 with
    | some p => closeHolds d own (haltNow (logEv 0x0102 unitPE 0x0E p s1))
    | none => closeHolds d own (floodReform d (ownHold d .reform s1))

/-! ### Offers by the coordinator (R392, R393, R397) -/

/-- The next eligible pool entry for an index, from entry `from_` on: its number and instance (R392). -/
def nextPool (s : State) (d from_ : Nat) : Option (Nat × Nat) :=
  ((List.range 64).filter (fun k => decide (from_ ≤ k))).findSome? (fun k =>
    let w := smGet poolInit s.faults.pool k
    if bitOf w 63 && (bitOf w 62 || fieldOf w 49 13 == d / 8) then some (k, fieldOf w 25 24) else none)

/-- Offer an index to its next eligible entry; with none left, exhaustion applies (R393, R397). -/
def offerNext (d : Nat) (s : State) : State :=
  match s.faults.offers.find? (fun o => o.die == d) with
  | none => s
  | some o =>
    match nextPool s d o.next with
    | none => exhaust d s
    | some (k, inst) =>
      let s1 := { s with faults := { s.faults with offers := s.faults.offers.map (fun x =>
        if x.die = d then { x with next := k + 1, cand := some (BitVec.ofNat 24 inst), since := s.time.tick.toNat } else x) } }
      floodChange (fun q => mkChange s 0 4 0 true false q d 0 0 o.old.toNat inst 0 (putField 32 32 o.mapCrc.toNat) 0) applyOffer s1

/-- A decline of the candidate that the coordinator is offering to (R393). -/
def declineIn (m : Msg) (s : State) : State :=
  match s.faults.offers.find? (fun o => o.die == pcDie m) with
  | some o => if o.cand = some (BitVec.ofNat 24 (pcNew m)) && !s.faults.restoring.contains o.die then offerNext o.die s else s
  | none => s

/-- The first offer whose candidate has been silent for 1 ms (R393). -/
def openOffer (s : State) : Option Offer :=
  s.faults.offers.find? (fun o => o.cand.isSome && !s.faults.restoring.contains o.die && decide (o.since + 100000 ≤ s.time.tick.toNat))

/-- OFFER_TIMEOUT (R393): a candidate silent for 1 ms is taken to have declined. -/
def execOfferTimeout (s : State) : Host.Outcome State Fault Refusal :=
  done s (onlyIf (isCoordinator s && !s.faults.dieFailed) s (fun t => withSome (openOffer t) t (fun o u => offerNext o.die u)))

/-! ### Hearth succession (R45, R380, R397) -/

/-- The indices whose offer is not committed. -/
def uncommitted (s : State) : List Nat :=
  (s.faults.offers.filter (fun o => !s.faults.restoring.contains o.die)).map (fun o => o.die)

/-- The holds that a new coordinator takes over (R380, R384): its own, those of uncommitted offers, of stand-ins and of RE-FORMs since the timers
paused, and, where none of these is known to have paused them, one for what it has still to be told (log 44). -/
def inheritedHolds (s : State) : List HoldRec :=
  let f := s.faults
  let mk := fun (k : HoldKind) (d inst : Nat) => ({ die := d, inst := inst, kind := k, since := s.time.tick.toNat } : HoldRec)
  let known := f.holds ++ (match f.hold with
      | some .standin => [mk .standin ((myDie s).getD 0) (me s)]
      | some _ => [mk .splice ((myDie s).getD 0) (me s)]
      | none => []) ++
    (uncommitted s).map (fun d => mk .own d 0xFFFFFF) ++
    f.restoring.map (fun d => mk .standin d (holderOf s d)) ++
    f.reforming.map (fun d => mk .reform d 0xFFFFFF)
  (if f.paused && !known.any (fun h => h.die == f.pausedBy) then known ++ [mk .splice f.pausedBy 0xFFFFFF] else known).foldl
    (fun l h => if l.any (fun x => x.die == h.die && x.inst == h.inst && x.kind == h.kind) then l else l ++ [h]) []

/-- The new coordinator takes over the open holds, restarts every offer that is not committed, and floods HOLD_OPEN again while a hold is
open (R380). -/
def becomeCoordinator (s : State) : State :=
  let ds := uncommitted s
  let s1 := { s with faults := { s.faults with
    offers := s.faults.offers.map (fun o => if ds.contains o.die then { o with next := 0, cand := none } else o),
    holds := inheritedHolds s } }
  let s2 := if s1.faults.paused || !s1.faults.holds.isEmpty then floodOpen ((s1.faults.holds.head?.map (fun h => h.die)).getD 0) s1 else s1
  forEach ds s2 offerNext

/-- A die that has opened a hold since the timers paused tells the new coordinator how it stands: open, or released (log 44). -/
def tellHold (s : State) : State :=
  let co := coordinator s
  let tell := fun (k : Nat) => route co (mkChange s co k 0 false false 0 ((myDie s).getD 0) 0 0 (me s) (me s) 0 0 0) s
  if s.faults.dieFailed then s
  else if s.faults.hold.isSome then tell 9
  else if s.faults.held then tell 0xB
  else s

/-- The attempt is unclean when the root of the seal group or of a group with an operation active in it changes (R364, reason 8). -/
def successionUnclean (g : GroupDef) (s : State) : State :=
  if isCoordinator s && (g.num == sealGroup s || (activeEntries s).any (fun e => eGroup e == g.num)) then
    raiseAtRoot uHearthSuccession s
  else s

/-- An applied HEARTH_SUCCESSION (R45): the root and its placement change, the children send again what the failed hearth had not
finished, and the new root opens its node instances (R202). -/
def applySuccession (m : Msg) (s : State) : State :=
  match groupNow s (pcGroup m) with
  | none => s
  | some g =>
    let old := pcOld m
    let new := pcNew m
    if rootInst s g.num ≠ old then s
    else
      let was := smGet 0 s.kiln.standbyUsed g.num
      let used := match indexIn new (g.standby.drop was) with
        | some i => was + i + 1
        | none => was
      let s1 := setPlaces g.num g.topLevel (rootCoord g) (fun l => l.map (fun i => if i = old then new else i))
        { noteGone old s with kiln := { s.kiln with
          roots := smSet 0xFFFFFF s.kiln.roots g.num new, standbyUsed := smSet 0 s.kiln.standbyUsed g.num used } }
      let s2 := logEv 0x080B unitPE g.num new s1
      let root := nodeId g.topLevel (rootCoord g)
      let s3 := if new = me s2 && running s2 then
          forEach ((activeEntries s2).filter (fun e => usesTree e && eGroup e == g.num)) s2 (fun e t => openLate e g root t)
        else s2
      let s4 := resendPartials g g.topLevel (rootCoord g) old s.kiln.places (refreshNode g g.topLevel (rootCoord g) s.kiln.places s3)
      let s5 := if g.num ≠ sealGroup s4 then s4
        else if new = me s4 then becomeCoordinator (settleTime s4)
        else tellHold (settleTime s4)
      successionUnclean g s5

/-- Flood HEARTH_SUCCESSION for a group. -/
def floodSuccession (g : GroupDef) (old new : Nat) (s : State) : State :=
  floodChange (fun q => mkChange s 0 2 g.num false false q 0 (rootCoord g) g.topLevel old new 0 0 0) applySuccession s

/-- A placement of the root's children has a link at the top level to every child placement (R397): known here of this instance; of
another it is a fact that this instance does not hold, a free value (log 45). -/
def qualifies (s : State) (g : GroupDef) (old i : Nat) : Bool :=
  if i = me s then (fallbackRoots s g old).all (fun o => o == i || !(linkSet s o g.topLevel).isEmpty)
  else (Config.freeWord (s.free + i)).getLsbD 0

/-- Decide the new root of a group whose root is `old`: the one that the request names, if it works, the next standby, or with the list
exhausted the fallback of R397. -/
def succeed (g : GroupDef) (old new : Nat) (s : State) : State :=
  if rootInst s g.num ≠ old then s
  else if new ≠ 0xFFFFFF ∧ knownWorking s new then floodSuccession g old new s
  else match nextStandby s g with
    | some nb => floodSuccession g old nb s
    | none =>
      if g.exhaustHalt then haltNow s
      else match (fallbackRoots s g old).find? (qualifies s g old) with
        | some i => floodSuccession g old i (useFree s)
        | none => haltNow (useFree s)

/-! ### Messages toward the coordinator (R381) -/

/-- The coordinator is lost, as far as this instance knows, or by the message itself, a DIE_FAILED that names it (R45, R391). -/
def coordLost (m : Msg) (s : State) : Bool :=
  !knownWorking s (coordinator s) || (mType m == 2 && pcKind m == 3 && pcOld m == coordinator s)

/-- A message for the coordinator: at an instance that is no longer it, the message goes on to the present one; a failed die drops it. Where
the coordinator is lost the message goes to its successor, and the successor succeeds it first (R380, R391). -/
def coordOnly (f : Msg → State → State) (m : Msg) (s : State) : State :=
  let on := fun (co : Nat) (t : State) => route co { m with m0 := setField m.m0 8 24 co } t
  if s.faults.dieFailed then s
  else if isCoordinator s then f m s
  else if !coordLost m s then on (coordinator s) s
  else if successor s ≠ me s then on (successor s) s
  else
    let t := match groupNow s (sealGroup s) with
      | some g => succeed g (coordinator s) 0xFFFFFF s
      | none => s
    if isCoordinator t then f m t else on (coordinator t) t

/-- Take a kind that is sent toward the coordinator. -/
def takeDirected (i kind : Nat) (f : Msg → State → State) (s : State) : State :=
  takeChange i kind (fun _ m t => coordOnly f m t) s

/-- HOLD. -/
def execHold (i : Nat) (s : State) : Host.Outcome State Fault Refusal := done s (takeDirected i 9 holdIn s)

/-- HOLD_RELEASE. -/
def execHoldRelease (i : Nat) (s : State) : Host.Outcome State Fault Refusal := done s (takeDirected i 0xB releaseIn s)

/-- ENTRY_FAILED (R44): a request, with CHANGE_SEQ 0, is for the coordinator to flood; a flooded change is applied. -/
def entryFailed (a : Arrival) (m : Msg) (s : State) : State :=
  if pcSeq m = 0 then coordOnly (fun m t => floodEntry (pcGroup m) (pcLevel m) (pcNode m) (pcOld m) t) m s
  else applyFlooded a m (applyEntry m) s

/-- ENTRY_FAILED. -/
def execEntryFailed (i : Nat) (s : State) : Host.Outcome State Fault Refusal := done s (takeChange i 1 entryFailed s)

/-- STANDIN_ACCEPT. -/
def execStandinAccept (i : Nat) (s : State) : Host.Outcome State Fault Refusal := done s (takeDirected i 5 acceptIn s)

/-- STANDIN_DECLINE. -/
def execStandinDecline (i : Nat) (s : State) : Host.Outcome State Fault Refusal := done s (takeDirected i 6 declineIn s)

/-- HEARTH_SUCCESSION (R45): a request, with CHANGE_SEQ 0, is for the coordinator, or for the hearth that is to be it; a flooded change is
applied. -/
def hearthSuccession (a : Arrival) (m : Msg) (s : State) : State :=
  if pcSeq m = 0 then
    let f := fun (m : Msg) (t : State) => match groupNow t (pcGroup m) with
      | some g => succeed g (pcOld m) (pcNew m) t
      | none => t
    if pcGroup m = sealGroup s && !s.faults.dieFailed then f m s else coordOnly f m s
  else applyFlooded a m (applySuccession m) s

/-- HEARTH_SUCCESSION. -/
def execHearthSuccession (i : Nat) (s : State) : Host.Outcome State Fault Refusal := done s (takeChange i 2 hearthSuccession s)

/-! ### DIE_FAILED at the coordinator (R379, R391, R409) -/

/-- Every placement entry that names an instance is removed, and its roots are succeeded (R379, R44, R45). -/
def unplace (inst : Nat) (s : State) : State :=
  forEach (s.kiln.places.filter (fun p => p.entries.contains inst)) s (fun p t => match groupNow t p.group with
    | none => t
    | some g =>
      if p.level = g.topLevel ∧ p.coord = rootCoord g then succeed g inst 0xFFFFFF t
      else floodEntry p.group p.level p.coord inst t)

/-- The disabled-tile map that the coordinator offers for a die: its own die's, else a fact that the coordinator does not hold, a free
value (log 45). -/
def offeredMap (s : State) (inst : Nat) : BitVec 32 := if inst = me s then mapCrc s else (Config.freeWord s.free).setWidth 32

/-- Start, or go on with, the stand-in procedure for an index (R391, R392). -/
def startStandin (d old : Nat) (s : State) : State :=
  let prev := s.faults.offers.find? (fun o => o.die == d)
  let o : Offer := { die := d, old := BitVec.ofNat 24 old, next := (prev.map (fun x => x.next)).getD 0, cand := none,
                     mapCrc := (prev.map (fun x => x.mapCrc)).getD (offeredMap s old), since := s.time.tick.toNat }
  offerNext d (useFree { s with faults := { s.faults with
    offers := s.faults.offers.filter (fun x => x.die != d) ++ [o], restoring := s.faults.restoring.filter (· != d) } })

/-- The RESTORE of a committed index has completed: known here of this instance, and where no entry restores anything; of another stand-in it is
a fact that this instance does not hold, a free value (log 45). -/
def restored (s : State) (d : Nat) : Bool :=
  s.faults.restoring.contains d &&
    (if holderOf s d = me s then s.faults.restoreDue.isEmpty
     else (mirrorsOf s d).all (fun e => (lastActive e (stepNo s)).isNone) || (Config.freeWord (s.free + d)).getLsbD 0)

/-- The twins of an index whose own stand-in procedure has not restored yet (R397, R409). -/
def twinsWaiting (s : State) (d : Nat) : List Nat :=
  (((mirrorsOf s d).map (fun e => d ^^^ eArg e)).eraseDups).filter (fun t => s.faults.offers.any (fun o => o.die == t) && !restored s t)

/-- The coordinator receives DIE_FAILED (R379, R391). A die that holds no index only leaves its placements. One whose index is being dealt
with, or is held by another, is discarded (R409). A stand-in that failed before it had its STANDIN_COMMIT names none and still loses the index
(R379). -/
def dieFailedIn (m : Msg) (s : State) : State :=
  let old := pcOld m
  let index := if pcNoIndex m then dieOfInst s old else some (pcDie m)
  let d := index.getD 0
  if index.isNone then unplace old (setPend 0x01 (noteGone old s))
  else if fieldOf (memberWord s d) 62 2 ≠ 1 ∨ holderOf s d ≠ old ∨
      (s.faults.offers.any (fun o => o.die == d) && !s.faults.restoring.contains d) then s
  else
    let s1 := closeHolds d (heldBy old) (ownHold d .own (setPend 0x01 (noteGone old s)))
    let s2 := unplace old (raiseAtRoot uStandIn s1)
    match twinsWaiting s2 d with
    | [] => startStandin d old (useFree s2)
    | ts => exhaust d (forEach ts (useFree s2) exhaust)

/-- DIE_FAILED. -/
def execDieFailed (i : Nat) (s : State) : Host.Outcome State Fault Refusal := done s (takeDirected i 3 dieFailedIn s)

end Sys2Proof.Machine
end

