-- ==== Sys2Proof/Machine/Hall.lean ====
section
/-! DEFINITION. Hall.lean: what happens on an Ethernet-mode port: frames, acknowledgements, timers and flows (R238 to R243, R326). -/

namespace Sys2Proof.Machine

/-- FRAGMENT_RECEIVE (R240): a hall frame that carries a fragment, a DRAIN, messages or a TIMING body. -/
def execFragmentReceive (p : Fin 18) (f : HallFrame) (s : State) : Host.Outcome State Fault Refusal := done s (takeFrame p.val f s)

/-- HALL_ACK (R239): a received ACK frame. -/
def execHallAck (p : Fin 18) (f : HallFrame) (s : State) : Host.Outcome State Fault Refusal := done s (takeFrame p.val f s)

/-- HALL_ACK_TIMER (R238): 2 µs after the oldest unit not yet acknowledged, an ACK frame goes out. -/
def execHallAckTimer (p : Fin 18) (flow : Fin 64) (s : State) : Host.Outcome State Fault Refusal :=
  done s (if ethLive s p.val && (flowAt s p.val flow.val).ackOwed then pushAck p.val flow.val s else s)

/-- HALL_RETRANSMIT (R239): 40 µs have passed since a unit's last transmission. -/
def execHallRetransmit (p : Fin 18) (flow : Fin 64) (seq : BitVec 32) (s : State) : Host.Outcome State Fault Refusal :=
  done s (if ethLive s p.val then retransmit p.val flow.val seq s else s)

/-- FLOW_DOWN (R242): HALL_DEAD without progress while units are outstanding. -/
def execFlowDown (p : Fin 18) (flow : Fin 64) (s : State) : Host.Outcome State Fault Refusal :=
  done s (if isEth s p.val && !(flowAt s p.val flow.val).units.isEmpty then flowFails p.val flow.val 1 s else s)

/-- HALL_ESTABLISH_ACK (R326): every 100 µs an ACK frame on each flow. -/
def execHallEstablishAck (p : Fin 18) (s : State) : Host.Outcome State Fault Refusal :=
  done s (if ethLive s p.val then ackAllFlows p.val s else s)

end Sys2Proof.Machine
end

