-- ==== Sys2Proof/Machine/HostPort.lean ====
section
/-! DEFINITION. HostPort.lean: the register port and the 1687 register-access instrument: what a read and a write of any address do
(R428 to R434, R339, R440, R444, R458). -/

namespace Sys2Proof.Machine

/-! ### Registers with no chapter of their own -/

/-- KX_IMAGE_BASE: BASE[11:0] are 0. -/
def writeImageBase (v : Word) (s : State) : State :=
  { s with kindle := { s.kindle with imageBase := BitVec.ofNat 32 (fieldOf v 12 20 * 4096) } }

/-- KX_NVM_CTRL. -/
def writeNvmCtrl (v : Word) (s : State) : State := { s with kindle := { s.kindle with nvmCtrl := BitVec.ofNat 4 (fieldOf v 60 4) } }

/-- KX_STANDIN_POOL[i]. -/
def writePool (i : Nat) (v : Word) (s : State) : State :=
  { s with faults := { s.faults with pool := smSet poolInit s.faults.pool i (v &&& ~~~(maskLow 25)) } }
where
  /-- The low `n` bits. -/
  maskLow (n : Nat) : Word := BitVec.ofNat 64 (2 ^ n - 1)

/-- KX_PORT_FLOW_SEL. -/
def writeFlowSel (p : Nat) (v : Word) (s : State) : State := setLink p (fun l => { l with flowSel := BitVec.ofNat 7 (fieldOf v 0 7) }) s

/-- KX_SEAL_STATUS: a 1 clears a W1C bit (R8). -/
def writeSealStatus (v : Word) (s : State) : State :=
  { s with step := { s.step with seen := s.step.seen &&& ~~~(BitVec.ofNat 3 (fieldOf v 0 3)) } }

/-- SEAL_STATUS_W1C. -/
def execSealStatusW1c (v : Word) (s : State) : Host.Outcome State Fault Refusal := done s (hostWrite s (writeSealStatus v))

/-- KX_FAULT_PENDING: a 1 clears a W1C bit (R8). -/
def writeFaultPending (v : Word) (s : State) : State :=
  { s with faults := { s.faults with pending := s.faults.pending &&& ~~~(BitVec.ofNat 8 (fieldOf v 0 8)) } }

/-- FAULT_PENDING_W1C. -/
def execFaultPendingW1c (v : Word) (s : State) : Host.Outcome State Fault Refusal := done s (hostWrite s (writeFaultPending v))

/-- KX_MEMBER[x] (R444): only in IDLE, and not with STATE 0b11; a stand-in's restored record may complete its recovery (R396). -/
def writeMember (x : Nat) (v : Word) (s : State) : State :=
  if s.step.state ≠ .idle ∨ fieldOf v 62 2 = 3 then countIgnored (0x1000000 + 8 * x) s
  else tryRelease false { s with tables := { s.tables with
    members := smSet memberInit s.tables.members x (putField 62 2 (fieldOf v 62 2) ||| putField 38 24 (fieldOf v 38 24)) } }

/-- MEMBER_WRITE (R444), with D63 WARM (R339, R428). -/
def execMemberWrite (x : BitVec 16) (v : Word) (s : State) : Host.Outcome State Fault Refusal :=
  done s (hostWrite s (warmWrite (0x1000000 + 8 * x.toNat) (writeMember x.toNat v)))

/-- KX_GROUP_EPOCH[g] (R444): only in IDLE; the host has restored the epochs that a mismatch put in doubt (R382). -/
def writeEpoch (g : Nat) (v : Word) (s : State) : State :=
  if s.step.state ≠ .idle then countIgnored (0x1080000 + 8 * g) s
  else tryRelease false { s with
    tables := { s.tables with epochs := smSet 0 s.tables.epochs g (BitVec.ofNat 16 (fieldOf v 48 16)) },
    faults := { s.faults with epochBad := false } }

/-- GROUP_EPOCH_WRITE (R444), with D63 WARM. -/
def execGroupEpochWrite (g : BitVec 8) (v : Word) (s : State) : Host.Outcome State Fault Refusal :=
  done s (hostWrite s (warmWrite (0x1080000 + 8 * g.toNat) (writeEpoch g.toNat v)))

/-! ### A write to any register (R431) -/

/-- A write to the identity, kindle, time and power regions. -/
def writeLow (a : Nat) (v : Word) (s : State) : State :=
  if a = 0x208 then writeReadSeq v s
  else if a = 0x210 then writeLogCtrl v s
  else if a = 0x220 then writeFreezeTick v s
  else if a = 0x228 then writeFreezeCtrl v s
  else if a = 0x240 then writeInjGlobal v s
  else if a = 0x1008 then writeKindleCtrl v s
  else if a = 0x1010 then writeInstanceId v s
  else if a = 0x1018 then writeImageBase v s
  else if a = 0x1020 then writeNvmCtrl v s
  else if 0x1040 ≤ a ∧ a < 0x1070 then writeAnchor ((a - 0x1040) / 8) v s
  else if a = 0x1070 then writeTrustCtrl v s
  else if 0x1080 ≤ a ∧ a < 0x10C8 then writeDisabled ((a - 0x1080) / 8) v s
  else if a = 0x2010 then writeTickSet v s
  else if a = 0x2030 then writeLaunchTick v s
  else if a = 0x2038 then writeLaunchCtrl v s
  else if a = 0x3008 then writePowerCtrl v s
  else s

/-- A write to the seal and faults region. -/
def writeSealRegion (a : Nat) (v : Word) (s : State) : State :=
  if a = 0x4008 then writeStepCtrl v s
  else if a = 0x4010 then writeStepNumber v s
  else if a = 0x4018 then writeSeed false v s
  else if a = 0x4020 then writeSeed true v s
  else if a = 0x4028 then writeSealStatus v s
  else if a = 0x4108 then writeFaultPending v s
  else if a = 0x4110 then writeRecovery v s
  else if 0x4200 ≤ a ∧ a < 0x4400 then writePool ((a - 0x4200) / 8) v s
  else if 0x4400 ≤ a ∧ a < 0x4800 then writeSplice ((a - 0x4400) / 8) v s
  else s

/-- The injector register at an offset of its window. -/
def injRegAt (o : Nat) : Option InjReg :=
  if o = 0 then some .ctrl else if o = 8 then some .matchReg else if o = 0x10 then some .param else if o = 0x18 then some .seed else none

/-- What a write to a register does; on read-only bits it does nothing, uncounted (R434). -/
def writeReg (a : Nat) (v : Word) (s : State) : State :=
  if a < 0x4000 then writeLow a v s
  else if a < 0x10000 then writeSealRegion a v s
  else if a < 0x14800 then
    let p := (a - 0x10000) / 0x400
    if a % 0x400 = 8 then writePortCtrl p v s else if a % 0x400 = 0x10 then writeFlowSel p v s else s
  else if 0x50000 ≤ a ∧ a < 0x50600 then
    (match injRegAt (a % 0x40) with
      | some r => writeInjector ((a - 0x50000) / 0x40) r v s
      | none => s)
  else if 0x1000000 ≤ a ∧ a < 0x1080000 then writeMember ((a - 0x1000000) / 8) v s
  else if 0x1080000 ≤ a ∧ a < 0x1080800 then writeEpoch ((a - 0x1080000) / 8) v s
  else s

/-! ### Accesses (R339, R429, R440) -/

/-- The byte address that RP_ADDR carries: [24:3]. -/
def wordAddr (addr : BitVec 25) : Nat := addr.toNat / 8 * 8

/-- An access at an address: at a hole of a hearth-only instance a write is counted; where no register lies it is a decode error; in a
domain that is not WARM it is a cold access; otherwise `f`. -/
def access (a : Nat) (write : Bool) (f : State → State) (s : State) : State :=
  if hearthHole s a then answer 0 false (if write then countIgnored a s else s)
  else if (regAt s a).isNone then answer 0 true (countDecode a s)
  else if !regWarm s a then answer 0 false (countCold a s)
  else f s

/-- The port writes a register; read data is 0. -/
def portWrite (a : Nat) (v : Word) (s : State) : State := access a true (fun t => answer 0 false (writeReg a v t)) s

/-- The tally record that an address of word T0 names: tile, attempt slot, landing entry. -/
def tallyT0 (a : Nat) : Option (Nat × Nat × Nat) :=
  if 0x200000 ≤ a ∧ a < 0x440000 ∧ a % 32 = 0 then
    let o := a - 0x200000
    some (o / 4096, o / 2048 % 2, o / 32 % 64)
  else none

/-- A read of word T0 latches T1 to T3 of the record into the segment's shadow (R440). -/
def latchTally (t a e : Nat) (s : State) : State :=
  let w := tallyOf s t a e
  let sh : Shadow := { key := tallyKey t a e, t1 := w.2.1, t2 := w.2.2.1, t3 := w.2.2.2 }
  answer w.1 false { s with shadows := smPut s.shadows (segOf t) sh }

/-- The port reads a register: only KX_TICK and word T0 of a tally record have a side effect (R433). -/
def portRead (a : Nat) (s : State) : State :=
  access a false (fun t =>
    if a = 0x2000 then readTick t
    else match tallyT0 a with
      | some r => latchTally r.1 r.2.1 r.2.2 t
      | none => answer (readReg t a) false t) s

/-- TALLY_T0_READ (R440). -/
def execTallyT0Read (t : Fin 576) (prev : Bool) (e : Fin 64) (s : State) : Host.Outcome State Fault Refusal :=
  done s (hostWrite s (portRead (0x200000 + 4096 * t.val + (if prev then 2048 else 0) + 32 * e.val)))

/-- REGISTER_WRITE (R431). -/
def execRegisterWrite (addr : BitVec 25) (v : Word) (s : State) : Host.Outcome State Fault Refusal :=
  done s (hostWrite s (portWrite (wordAddr addr) v))

/-- UNMAPPED_ACCESS (R429): of an address that no register occupies. -/
def execUnmappedAccess (addr : BitVec 25) (write : Bool) (s : State) : Host.Outcome State Fault Refusal :=
  done s (hostWrite s (fun t => if (regAt t (wordAddr addr)).isNone then access (wordAddr addr) write id t else t))

/-- COLD_ACCESS (R339): of a register whose domain is not WARM. -/
def execColdAccess (addr : BitVec 25) (write : Bool) (s : State) : Host.Outcome State Fault Refusal :=
  done s (hostWrite s (fun t => if (regAt t (wordAddr addr)).isSome && !regWarm t (wordAddr addr) then
    access (wordAddr addr) write id t else t))

/-- TEST_REGISTER_ACCESS (R458): the instrument acts in test mode too; with RST_N low outside it, it reads 0 and its write is discarded
(R461). A register in a region that runs on its cells or is scanned reads a free value (R457). RP_ACK is the register port's alone. -/
def execTestRegisterAccess (addr : BitVec 25) (write : Bool) (v : Word) (s : State) : Host.Outcome State Fault Refusal :=
  let a := wordAddr addr
  let read := fun (t : State) => if regionShifted t ((regDomain a).getD 0) then answer (Config.freeCell t.free 3) false t else portRead a t
  let t := onlyIf (s.pins.rstN || s.pins.testMode) (answer 0 false s) (if write then portWrite a v else read)
  done s { t with rp := { t.rp with ack := s.rp.ack } }

end Sys2Proof.Machine
end

