-- ==== Sys2Proof/Machine/Leaf.lean ====
section
/-! DEFINITION. Leaf.lean: the commands of a leaf interface: its counter port, reading and sending cords, landing them (chapter 05). -/

namespace Sys2Proof.Machine

/-! ### Counter port (R127 to R129) -/

/-- A READ returns the counter's value (R127). -/
def counterRead (t sel : Nat) (s : State) : State :=
  setLeaf t (fun l => { l with cntRdata := smGet 0 l.counters sel, cntRvalid := true }) s

/-- A counter-port operation (R127, R129): ADD outside the step is discarded and counted, a reserved code is ignored and counted. -/
def counterOp (t op sel amt : Nat) (s : State) : State :=
  let s1 := setLeaf t (fun l => { l with cntRvalid := false }) s
  match op with
  | 0 => if (leafAt s t).stepOpen then bump t sel amt s1 else segCtr (segOf t) 0x20 1 s1
  | 1 => counterRead t sel s1
  | _ => segCtr (segOf t) 0x28 1 s1

/-- A tile's counter-port operation is taken in its cycle (R127). -/
def execCounterAdd (t : Fin 576) (op : BitVec 2) (sel : BitVec 6) (amt : BitVec 16) (s : State) : Host.Outcome State Fault Refusal :=
  done s (onlyIf (leafLive s t.val) s (counterOp t.val op.toNat sel.toNat amt.toNat))

/-- A counter-port READ (R127). -/
def execCounterRead (t : Fin 576) (sel : BitVec 6) (s : State) : Host.Outcome State Fault Refusal :=
  done s (onlyIf (leafLive s t.val) s (counterRead t.val sel.toNat))

/-! ### Sending (R141, R142) -/

/-- The logical die index that W2[63:48] carries at the leaf (Table: Header fields set by the leaf). -/
def leafTarget (s : State) (e : PlanEntry) : Nat :=
  let d := (myDie s).getD 0
  if eKind e = 7 then ((entryGroup s e).bind (fun g => dieOfMember g (tgtNow s e))).getD d
  else if eKind e = 8 then d ^^^ eArg e
  else d

/-- The cord that a leaf builds (Table: Header fields set by the leaf). -/
def leafCord (s : State) (e : PlanEntry) (t c rows flags mask : Nat) (payload : List Byte) : Cord :=
  sealCrc (setMask
    { w0 := mkW0 (fmtOfCord e (posNow s e) c) (eKind e) (eIdx e) 0 (epochOf s (eGroup e)) ((myDie s).getD 0),
      w1 := mkW1 (stepNo s) c, w2 := mkW2 (leafTarget s e) (tileIdx s t) rows flags,
      w3 := 0, w4 := 0, w5 := 0, w6 := 0, w7 := 0, payload := payload } mask) 0

/-- Send a PASS, MIRROR or RESTORE cord to the instance that holds a die. -/
def sendToDie (t die vc : Nat) (c : Cord) (s : State) : State :=
  let inst := holderOf s die
  if inst = me s then deliver { src := .self 0, vc := vc, body := .cord c } s
  else sendInst (unitSeg (segOf t)) inst (joinLevel die ((myDie s).getD 0)) vc c false s

/-- The plan engine's note of a MIRROR cord that waits for its acknowledgement (R111). -/
def noteMirror (plan c tile : Nat) (s : State) : State :=
  { s with step := { s.step with mirrorOut := s.step.mirrorOut ++ [(plan, c, tile)] } }

/-- A cord leaves its leaf: PASS to the target member, MIRROR to the twin, both against the digest (R109, R110, R362); any other to the
segment node of its position (R47). -/
def sendLeafCord (t : Nat) (e : PlanEntry) (c : Cord) (s : State) : State :=
  let minus := fun (u : State) => addDigest (eIdx e) (0 - cordDigest c) (0 - 1) u
  if eKind e = 7 then sendToDie t (leafTarget s e) 2 c (minus s)
  else if eKind e = 8 then sendToDie t (leafTarget s e) 3 c (noteMirror (eIdx e) (cIdx c) (tileIdx s t) (minus s))
  else toStops (unitSeg (segOf t)) [unitSeg (segOfLogical s (tileIdx s t))] 0 { src := .leaf t, vc := 0, body := .cord c } [] s

/-- The count row of a position (R103): L, rows read, rows dropped. -/
def countRow (e : PlanEntry) (l : Leaf) : Nat :=
  let n := smGet 0 l.gatherL (eIdx e)
  joinElems 32 [n, smGet 0 l.gatherRead (eIdx e), n - eCap e]

/-- A leaf issues its count or total cord (R103): one row present, DROP where it dropped rows (R102). -/
def sendCount (t : Nat) (e : PlanEntry) (c : Nat) (s : State) : State :=
  let l := leafAt s t
  let p := posNow s e
  let rows := rowsOfCord e p c
  let k := if p * eQ e + ceilDiv p 128 ≤ c then 0 else ((positionNow s e (tileIdx s t)).getD 0) % 128
  let drop := if eCap e < smGet 0 l.gatherL (eIdx e) then fDrop else 0
  let body := zeros (128 * k) ++ leBytes 128 (countRow e l) ++ zeros (128 * (rows - k - 1))
  sendLeafCord t e (leafCord s e t c rows drop (2 ^ k) body) s

/-- The head of the firing queue may be offered to its segment node (R193); PASS and MIRROR cords wait for no node. -/
def mayOffer (s : State) (t : Nat) (f : Firing) : Bool :=
  match entryAt s f.plan with
  | none => false
  | some e => !usesTree e || match findNode s f.plan (segNode ((myDie s).getD 0) (segOfLogical s (tileIdx s t))) with
    | some x => inWin x f.cord
    | none => false

/-- Issue count and total cords from the head of the firing queue while the window allows. -/
def issueCounts (t : Nat) : Nat → State → State
  | 0, s => s
  | n + 1, s =>
    match (leafAt s t).fireQ with
    | [] => s
    | f :: q =>
      match entryAt s f.plan with
      | none => s
      | some e =>
        if f.kind != .data && mayOffer s t f then
          issueCounts t n (sendCount t e f.cord (setLeaf t (fun l => { l with fireQ := q }) s))
        else s

/-- The rows of a cord just read: values, flags, and how many are present. -/
def readRows (s : State) (e : PlanEntry) (t : Nat) (r : ReadCtx) : List (Option Nat) :=
  let rb := rowBytes (eMl e) (eFmt e)
  let pitch := rowPitch (eMl e) (eFmt e)
  let idx := match entryGroup s e with
    | some g => maxlocIndex g ((myDie s).getD 0) s.kindle.logical (tileIdx s t)
    | none => 0
  (List.range r.rows).map (fun i =>
    if r.mask.getLsbD i then
      let v := ofLe (rowRead r.got (r.base + i * pitch) rb)
      some (if eMl e then leafMaxloc (eFmt e) idx v else v)
    else none)

/-- A RESTORE cord from the rows read in the twin's mirror bank (R395). -/
def restoreCord (s : State) (e : PlanEntry) (t c fl : Nat) (rows : List (Option Nat)) (step die : Nat) : Cord :=
  let base := leafCord s e t c rows.length fl (maskOfRows rows) (payloadOfRows (rowBytes (eMl e) (eFmt e)) 0 rows)
  sealCrc { base with w0 := setField base.w0 48 4 0xA, w1 := mkW1 step c, w2 := setField base.w2 48 16 die } 0

/-- The cord's last beat has returned: the header is completed and the cord leaves (R141); the release counter is bumped (R143); after a
GATHER slot's last data cord the count and total cords follow (R103). -/
def finishRead (t : Nat) (r : ReadCtx) (s : State) : State :=
  match entryAt s r.firing.plan with
  | none => setLeaf t (fun l => { l with reading := none }) s
  | some e =>
    let rows := readRows s e t r
    let c := r.firing.cord
    let here := rows.filterMap id
    let fl := here.foldl (fun a v => a ||| leafRowFlags (eFn e) (eFmt e) v) 0
    let s1 := setLeaf t (fun l => { l with reading := none }) s
    match r.restore with
    | some (step, die) => sendToDie t die 3 (restoreCord s e t c fl rows step.toNat die) s1
    | none =>
      let lastData := eKind e == 4 && c % eQ e == eQ e - 1
      let drop := if lastData && decide (eCap e < smGet 0 (leafAt s t).gatherL (eIdx e)) then fDrop else 0
      let body := payloadOfRows (rowBytes (eMl e) (eFmt e)) 0 rows
      let cord := leafCord s e t c rows.length (fl ||| drop) (maskOfRows rows) body
      let s2 := if eKind e = 4 then
          setLeaf t (fun l => { l with gatherRead := smMod 0 l.gatherRead (eIdx e) (· + here.length) }) s1 else s1
      let s3 := if fl = 0 then s2 else originate e s2
      let s4 := sendLeafCord t e cord s3
      let s5 := match (leafAt s t).trigs.find? (fun tr => tr.slot == r.firing.slot) with
        | some tr => if trReleaseEn tr.w1 && (r.maskKnown || !r.got.isEmpty) then bump t (trRelease tr.w1) 1 s4 else s4
        | none => s4
      if lastData then
        let p := posNow s e
        let k := (positionNow s e (tileIdx s t)).getD 0
        let cc : Firing := { slot := r.firing.slot, plan := eIdx e, cord := p * eQ e + k / 128, kind := .count }
        let ct : Firing := { slot := r.firing.slot, plan := eIdx e, cord := p * eQ e + ceilDiv p 128, kind := .total }
        issueCounts t 2 (setLeaf t (fun l => { l with fireQ := cc :: ct :: l.fireQ }) s5)
      else s5

/-- Finish a read that has nothing left to ask for or to wait for. -/
def checkRead (t : Nat) (s : State) : State :=
  match (leafAt s t).reading with
  | some r =>
    if !r.want.isEmpty || !r.wait.isEmpty then s
    else if r.void then setLeaf t (fun l => { l with reading := none }) s
    else finishRead t r s
  | none => s

/-- Begin to read a data cord: its mask line first, where its ring has one (R139); a MIRROR ignores the mask line (R133). -/
def beginRead (t : Nat) (e : PlanEntry) (f : Firing) (s : State) : State :=
  let l := leafAt s t
  let rows := rowsOfCord e (posNow s e) f.cord
  let ring := match l.trigs.find? (fun tr => tr.slot == f.slot) with
    | some tr => smGet 0 l.rings (trRing tr.w0)
    | none => 0
  let b := stagingBase e ring (if eKind e = 4 then f.cord % eQ e else f.cord)
  let offered := offeredMask e l f.cord rows
  let masked := b.2 && eKind e != 8
  let want := if masked then [{ addr := beatAddr (b.1 - 64), half := 3, isMask := true }]
    else rowBeats b.1 (rowPitch (eMl e) (eFmt e)) rows offered
  let r : ReadCtx := { firing := f, want := want, wait := [], got := [], mask := BitVec.ofNat 256 offered, maskKnown := false,
                       rows := rows, base := b.1, restore := none, stalled := false, void := false }
  checkRead t (setLeaf t (fun x => { x with reading := some r }) (noteProgress (progKey 1 0 t) s))

/-- The leaf starts the cord at the head of its firing queue (R132, R133): a BARRIER is issued without a read (R106), a GATHER count or
total cord likewise; another is read. A head beyond the window waits (R193, R194). A RESTORE read starts where no firing can. -/
def startRead (t : Nat) (s : State) : State :=
  let l := leafAt s t
  let restoreNext := fun (u : State) => match l.restoreQ with
    | [] => u
    | r :: rs => checkRead t (setLeaf t (fun x => { x with reading := some r, restoreQ := rs }) u)
  match l.fireQ with
  | [] => restoreNext s
  | f :: q =>
    match entryAt s f.plan with
    | none => setLeaf t (fun x => { x with fireQ := q }) s
    | some e =>
      if mayOffer s t f then
        let s1 := setLeaf t (fun x => { x with fireQ := q }) s
        if f.kind != .data then sendCount t e f.cord s1
        else if eKind e = 5 then sendLeafCord t e (leafCord s e t f.cord 0 0 0 []) s1
        else beginRead t e f s1
      else restoreNext (leadEvent f.plan f.cord (unitSeg (segOf t)) s)

/-- The leaf starts reading the cord at the head of its firing queue (R132). -/
def execCordReadStart (t : Fin 576) (s : State) : Host.Outcome State Fault Refusal :=
  done s (onlyIf (leafLive s t.val && (leafAt s t.val).reading.isNone) s (startRead t.val))

/-- The tile grants the read beat that the leaf requests (R126). -/
def execReadGrant (t : Fin 576) (s : State) : Host.Outcome State Fault Refusal :=
  done s (onlyIf (leafLive s t.val) s (fun u => setLeaf t.val (fun l => { l with reading := l.reading.map (fun r =>
    match r.want with
    | b :: bs => { r with want := bs, wait := r.wait ++ [b] }
    | [] => r) }) (noteProgress (progKey 1 0 t.val) u)))

/-- Read data of one beat: the mask line gives the rows to read, with bits at and above the row count taken as 0 (R139); any other beat
its bytes. -/
def takeBeat (e : PlanEntry) (l : Leaf) (data : BitVec 512) (r : ReadCtx) : ReadCtx :=
  match r.wait with
  | [] => r
  | b :: bs =>
    if b.isMask then
      let m := data.toNat % 2 ^ 256 &&& offeredMask e l r.firing.cord r.rows
      { r with wait := bs, mask := BitVec.ofNat 256 m, maskKnown := true,
               want := rowBeats r.base (rowPitch (eMl e) (eFmt e)) r.rows m }
    else { r with wait := bs, got := r.got ++ [(b.addr, leBytes 64 data.toNat)] }

/-- Read data returns for the oldest granted beat (R126). -/
def readData (t : Nat) (data : BitVec 512) (s : State) : State :=
  match (leafAt s t).reading with
  | none => s
  | some r =>
    if r.wait.isEmpty then s
    else if r.void then checkRead t (setLeaf t (fun l => { l with reading := some { r with wait := r.wait.drop 1 } }) s)
    else match entryAt s r.firing.plan with
      | none => s
      | some e => checkRead t (setLeaf t (fun l => { l with reading := some (takeBeat e l data r) }) s)

/-- Read data returns (R126). -/
def execReadData (t : Fin 576) (data : BitVec 512) (s : State) : Host.Outcome State Fault Refusal :=
  done s (onlyIf (leafLive s t.val) s (readData t.val data))

/-- A read grant withheld for more than 1,024 cycles logs one staging stall for the cord (R144). -/
def stagingStall (t : Nat) (s : State) : State :=
  match (leafAt s t).reading with
  | none => s
  | some r =>
    if r.want.isEmpty || r.stalled || r.void then s
    else
      logEv 0x0701 (unitSeg (segOf t)) (argTP (tileIdx s t) r.firing.plan) r.firing.cord
        (segCtr (segOf t) 0x10 1 (setLeaf t (fun l => { l with reading := some { r with stalled := true } }) s))

/-- STAGING_STALL (R144). -/
def execStagingStall (t : Fin 576) (s : State) : Host.Outcome State Fault Refusal :=
  done s (onlyIf (leafLive s t.val) s (stagingStall t.val))

/-! ### Landing (R148 to R154) -/

/-- Once the permit is visible to the holding buffer, the held cords of a landing entry leave kiln memory for the leaf, in ascending cord
index (R152): each by the stop of its bank's kiln unit. -/
def releaseHeldCords (t e : Nat) (s : State) : State :=
  let l := leafAt s t
  match l.lands.find? (fun x => x.slot == e) with
  | none => s
  | some x =>
    if x.met then
      let mine := l.held.filter (fun h => h.slot == e)
      let order := sortNat (mine.map (fun h => cIdx h.cord))
      let sorted := (order.eraseDups).flatMap (fun c => mine.filter (fun h => cIdx h.cord == c))
      let s1 := setLeaf t (fun y => { y with
        lands := y.lands.map (fun z => if z.slot = e then { z with visible := true } else z),
        held := y.held.filter (fun h => h.slot != e) }) s
      forEach sorted s1 (fun h u =>
        let vc := landVc (cKind h.cord)
        let bank := (h.buf.map (· / 384)).getD 0
        toStops (unitKiln bank) [unitSeg (segOf t)] vc { src := .self 0, vc := vc, body := .cord h.cord } [(t, e)]
          (if cKind h.cord = 7 then withSome h.buf u giveBuf else u))
    else s

/-- HELD_CORD_RELEASE (R152). -/
def execHeldCordRelease (t : Fin 576) (e : Fin 64) (s : State) : Host.Outcome State Fault Refusal :=
  done s (onlyIf (leafLive s t.val) s (releaseHeldCords t.val e.val))

/-- Cords of an entry with a permit land in the order in which they were sent to the leaf (R152): none that was sent before is still on the
rings or behind it. -/
def inTurn (s : State) (t : Nat) (x : Land) (it : LandItem) : Bool :=
  !lePermitEn x.w0 ||
    (!s.fabric.items.any (fun r => !r.void && r.leaves.contains (t, it.slot) && decide (r.id < it.seq)) &&
      !(leafAt s t).landQ.any (fun o => o.slot == it.slot && decide (o.seq < it.seq)))

/-- A landing begins: the rows, then the record (R148); a landing waits while a record or another landing is written (R149, R175). -/
def startLanding (t : Nat) (s : State) : State :=
  let l := leafAt s t
  let turn := fun (it : LandItem) => (l.lands.find? (fun x => x.slot == it.slot)).elim true (fun x => inTurn s t x it)
  match l.writing, l.recQ, l.landQ.find? turn with
  | none, [], some it =>
    let q := l.landQ.erase it
    (match l.lands.find? (fun x => x.slot == it.slot), entryAt s (cPlan it.cord) with
      | some x, some e =>
        setLeaf t (fun y => { y with
          landQ := q,
          writing := some { slot := it.slot, cord := some it.cord, beats := landingBeats s e x t it.cord, stalled := false,
                            void := false } }) (noteProgress (progKey 2 0 t) s)
      | _, _ => setLeaf t (fun y => { y with landQ := q }) s)
  | _, _, _ => s

/-- A descending cord reaches a leaf and begins to be written (R148). -/
def execCordLand (t : Fin 576) (s : State) : Host.Outcome State Fault Refusal :=
  done s (onlyIf (leafLive s t.val) s (startLanding t.val))

/-- The acknowledgement of a MIRROR cord (R225), sent after its landing record has been written. -/
def mirrorAckOf (s : State) (c : Cord) : Cord :=
  sealCrc { w0 := mkW0 15 (cKind c) (cPlan c) 0 (cEpoch c) ((myDie s).getD 0), w1 := c.w1,
            w2 := mkW2 (cSource c) (cTile c) 0 0, w3 := 0, w4 := 0, w5 := 0, w6 := 0, w7 := 0, payload := [] } 0

/-- A cord has landed: its tally, its COMPLETION counter, the L0 die node's index or the PASS hold, and for MIRROR the acknowledgement (R154,
R155, R191, R196, R225). -/
def cordLanded (t slot : Nat) (c : Cord) (s : State) : State :=
  let s1 := setLeaf t (tallyLand slot (cIdx c) s.time.tick) s
  let s3 := match (leafAt s t).lands.find? (fun x => x.slot == slot) with
    | some x => bump t (leCompletion x.w0) 1 s1
    | none => s1
  match entryAt s (cPlan c) with
  | none => s3
  | some e =>
    if eKind e = 7 then closePassHold e s3
    else if eKind e = 8 then sendToDie t (cSource c) 3 (mirrorAckOf s c) s3
    else flushPlan (cPlan c) (tryClose (cPlan c) (nodeId 0 ((myDie s).getD 0)) (cIdx c) s3)

/-- What follows the grant of a beat, by what it belongs to: a landing record, the step record (R175), the seal record (R369), or the last
row of a RESTORE cord. A landing given up has no record and no bump. DESIGN CHOICE, UNSAFE (log 82): a seal record still ungranted when the
next step opens keeps its write, and its grant then bumps the counter and lowers LI_STEP_OPEN inside that step. -/
def beatGranted (t : Nat) (w : WriteCtx) (b : WrBeat) (last : Bool) (s : State) : State :=
  if w.void then s
  else match b.kind with
  | .row => s
  | .record => withSome w.cord s (fun c u => cordLanded t w.slot c u)
  | .stepRec => bump t (stepRecCounter s) 1 s
  | .sealRec => setLeaf t (fun l => { l with stepOpen := l.stepOpen && !l.sealing, sealing := false }) (bump t (stepRecCounter s) 1 s)
  | .restoreRow =>
    if last then withSome w.cord s (fun c u =>
        tryRelease true { u with faults := { u.faults with
          restoreDue := u.faults.restoreDue.filter (fun x => x != (cPlan c, cIdx c, cTile c)) } })
    else s

/-- The tile grants the write beat that the leaf holds (R126). -/
def writeGrant (t : Nat) (s : State) : State :=
  match (leafAt s t).writing with
  | none => s
  | some w =>
    match w.beats with
    | [] => setLeaf t (fun l => nextRecord { l with writing := none }) s
    | b :: bs =>
      let s1 := setLeaf t (fun l => if bs.isEmpty then nextRecord { l with writing := none }
          else { l with writing := some { w with beats := bs } }) s
      beatGranted t w b bs.isEmpty (noteProgress (progKey 2 0 t) s1)

/-- WRITE_GRANT (R126). -/
def execWriteGrant (t : Fin 576) (s : State) : Host.Outcome State Fault Refusal :=
  done s (onlyIf (leafLive s t.val) s (writeGrant t.val))

/-- A landing refused a write grant for more than 1,024 cycles logs one landing stall for the cord (R151). -/
def landingStall (t : Nat) (s : State) : State :=
  match (leafAt s t).writing with
  | none => s
  | some w => match w.cord with
    | none => s
    | some c =>
      if w.stalled || w.void then s
      else
        logEv 0x0702 (unitSeg (segOf t)) (argTP (tileIdx s t) (cPlan c)) (cIdx c)
          (segCtr (segOf t) 0x18 1 (setLeaf t (fun l => { l with writing := some { w with stalled := true } }) s))

/-- LANDING_STALL (R151). -/
def execLandingStall (t : Fin 576) (s : State) : Host.Outcome State Fault Refusal :=
  done s (onlyIf (leafLive s t.val) s (landingStall t.val))

/-- A parity error in a tile's leaf entries makes the die splice the tile's position (R387). -/
def execLeafEntryParityError (t : Fin 576) (s : State) : Host.Outcome State Fault Refusal :=
  done s (match s.image with
    | some _ => (spliceTile t.val s).getD s
    | none => s)

end Sys2Proof.Machine
end

