-- ==== Sys2Proof/Machine/Reset.lean ====
section
/-! DEFINITION. Reset.lean: RST_N, TEST_MODE, the wrappers and the test instruments (R299, R410, R449, R457 to R460). -/

namespace Sys2Proof.Machine

/-- The domains of a reset block with the grants that the host still holds up. -/
def keepGrants (old fresh : SMap Dom) : SMap Dom :=
  (blockDoms.filter (fun d => (smGet Dom.init old d).gnt)).foldl (fun m d => smSet Dom.init m d { Dom.init with gnt := true }) fresh

/-- Every register at its reset value (R299): the ash log keeps its entries, its sequence counts and the events that wait for it (R410); a
domain's grant follows the host's signal and not the reset; the tick is still the old one, for the entry that logs the reset. -/
def resetRegs (s : State) : State :=
  let r := State.reset
  { r with
    params := s.params,
    pins := { r.pins with rstN := s.pins.rstN, testMode := s.pins.testMode, needRstPulse := s.pins.needRstPulse,
                          wrappers := s.pins.wrappers, testNo := s.pins.testNo },
    log := { r.log with entries := s.log.entries, writeSeq := s.log.writeSeq, readSeq := s.log.readSeq, queue := s.log.queue,
                        lostCount := s.log.lostCount, lostFirst := s.log.lostFirst, filling := s.log.filling },
    power := { r.power with doms := keepGrants s.power.doms r.power.doms },
    time := { r.time with tick := s.time.tick },
    free := s.free,
    pending := s.pending }

/-- RST_N falls (R299). -/
def rstLow (s : State) : State :=
  if s.pins.rstN then resetRegs { s with pins := { s.pins with rstN := false } } else s

/-- RST_N_LOW. -/
def execRstNLow (s : State) : Host.Outcome State Fault Refusal := done s (rstLow s)

/-- RST_N is released (R299, R449): the tick restarts at 0, which is logged as a tick discontinuity (R277). With TEST_MODE at 1 the block
stays as it is (R459). -/
def rstHigh (s : State) : State :=
  if s.pins.rstN then s
  else if s.pins.testMode then { s with pins := { s.pins with rstN := true } }
  else
    logWide 0x0201 unitEmber s.time.tick 0 0
      { s with pins := { s.pins with rstN := true, needRstPulse := false }, time := { s.time with tick := 0, frac := 0 } }

/-- RST_N_HIGH. -/
def execRstNHigh (s : State) : Host.Outcome State Fault Refusal := done s (rstHigh s)

/-! ### Test access (R457 to R460) -/

/-- The ATTN outputs, behind the boundary cells of WR_EMBER (R457). -/
def attnPins (s : State) : BitVec 4 := (driven s .ember 0 ((attn s).setWidth 64)).setWidth 4

/-- TEST_MODE rises (R459): as RST_N falling, and the wrappers act. -/
def testRise (s : State) : State :=
  if s.pins.testMode then s else selectWrappers (resetRegs { s with pins := { s.pins with testMode := true } })

/-- TEST_MODE_RISE. -/
def execTestModeRise (s : State) : Host.Outcome State Fault Refusal := done s (testRise s)

/-- TEST_MODE falls (R459): registers are at reset, the log is filled with zeros from sequence 0, corrected-error counts and retirements are
cleared, and kindling needs a low pulse on RST_N. -/
def testFall (s : State) : State :=
  if s.pins.testMode then
    let r := resetRegs { s with pins := { s.pins with testMode := false, needRstPulse := true, wrappers := [] } }
    { r with log := { r.log with entries := [], writeSeq := 0, readSeq := 0, queue := [], lostCount := 0, lostFirst := none,
                                 filling := true } }
  else s

/-- TEST_MODE_FALL. -/
def execTestModeFall (s : State) : Host.Outcome State Fault Refusal := done s (testFall s)

end Sys2Proof.Machine
end

