-- ==== Sys2Proof/Machine/Rings.lean ====
section
/-! DEFINITION. Rings.lean: the rings and the seam: injection, credits, reservations and ejection (R262 to R271). -/

namespace Sys2Proof.Machine

/-! ### Injection -/

/-- The stops of a ring in CW order: a hearth-only instance has no segment combiner stops, and with the seam closed only the west loop is
left (R262, R271). -/
def ringStops (s : State) : List Nat :=
  (List.range 49).filter (fun p => !(s.params.hearthOnly && decide (0x40 ≤ unitAt p) && decide (unitAt p ≤ 0x4F)) &&
    !(s.power.eastClosed && eastStop p))

/-- Slots of a ring: its stages and the 16 of the two lanes, 4 beats to a slot (R262). -/
def ringSlots (s : State) : Nat := ((ringStops s).length + (if s.power.eastClosed then 0 else 16)) / 4

/-- Hops from one stop to another on a CW or CCW ring (R262). -/
def hops (order : List Nat) (ccw : Bool) (a b : Nat) : Nat :=
  let n := order.length
  let p := (indexIn a order).getD 0
  let q := (indexIn b order).getD 0
  if ccw then (p + n - q) % n else (q + n - p) % n

/-- The farthest destination of an item in a direction. -/
def farthest (order : List Nat) (ccw : Bool) (it : RingItem) : Nat := it.dests.foldl (fun m d => max m (hops order ccw it.src d)) 0

/-- The direction of an item: the fewer hops to its farthest destination stop, CW on a tie; true is CCW (R263). -/
def goesCcw (order : List Nat) (it : RingItem) : Bool := decide (farthest order true it < farthest order false it)

/-- The cord index that spreads an item over the rings. -/
def itemIdx (it : RingItem) : Nat :=
  match it.item.body with
  | .cord c => cIdx c
  | .root c => cIdx c
  | _ => 0

/-- The ring of flit `f` of an item: (c + f) mod 4 of its direction; rings 0 to 3 are CW, 4 to 7 CCW (R263). -/
def ringOf (order : List Nat) (it : RingItem) (f : Nat) : Nat := (itemIdx it + f) % 4 + (if goesCcw order it then 4 else 0)

/-- The next flit of an item that this ring is to carry. -/
def nextOn (order : List Nat) (ring : Nat) (it : RingItem) : Option Nat :=
  (List.range it.flits).find? (fun f => !it.void && !it.sent.contains f && ringOf order it f == ring)

/-- The seam lanes on an item's way to its farthest destination, in order, true for eastbound; none while the seam is closed (R268, R271).
R268 calls the lane between stops 24 and 25 eastbound for every ring, but a CCW ring travels west there: the model names a lane by the half
that it leads into, for CCW rings too. DESIGN CHOICE, log 76. -/
def crossings (s : State) (it : RingItem) : List Bool :=
  let order := ringStops s
  let n := order.length
  let ccw := goesCcw order it
  let p := (indexIn it.src order).getD 0
  let east := fun (i : Nat) => eastStop ((order[if ccw then (p + n - i % n) % n else (p + i) % n]?).getD 0)
  if s.power.eastClosed then []
  else (List.range (farthest order ccw it)).filterMap (fun i => if east i == east (i + 1) then none else some (east (i + 1)))

/-- The items of a channel at a stop that may go: a drain marker goes once all before it have arrived, and what follows waits for it, so that
it keeps its place (R11, R250). -/
def ringLine (s : State) (stop v : Nat) : List RingItem :=
  match s.fabric.items.filter (fun it => it.src == stop && it.vc == v) with
  | [] => []
  | it :: l => (it :: l).takeWhile (fun x => isMark x.item == isMark it.item)

/-- The item at the head of a channel at a stop for a ring: the oldest with a flit that it is to carry, and that flit (R255, R264). -/
def ringHead (s : State) (stop ring v : Nat) : Option (RingItem × Nat) :=
  let order := ringStops s
  (ringLine s stop v).findSome? (fun it => (nextOn order ring it).map (fun f => (it, f)))

/-- The credit of a source at a destination for a channel and a direction. -/
def creditKey (dest src vc ring : Nat) : Nat := ((dest * 49 + src) * 5 + vc) * 2 + ring / 4

/-- Each stop grants every other stop one credit per channel and direction (R264; the count is the model's, log 11). -/
def hasCredits (s : State) (it : RingItem) (ring : Nat) : Bool :=
  it.dests.all (fun d => decide (smGet 0 s.fabric.ejectUsed (creditKey d it.src it.vc ring) < 1))

/-- An item is bound for the east half while the seam is closed (R271). -/
def heldWest (s : State) (it : RingItem) : Bool := s.power.eastClosed && it.dests.any eastStop

/-- Beats that a segment stop may inject in an ember cycle: one in any two fast cycles, 16 of which make a cycle at 1.6 GHz (R265). -/
def segShare (s : State) (stop : Nat) : Nat := 8 - 2 * (if eastStop stop then s.power.stepE else s.power.stepW).toNat

/-- A segment stop's share of the rings is used up (R265). -/
def segFull (s : State) (stop : Nat) : Bool :=
  let u := unitAt stop
  decide (0x40 ≤ u) && decide (u ≤ 0x4F) && decide (segShare s stop ≤ smGet 0 s.fabric.segBeats stop)

/-- The flits that take slots of a ring: those in flight and in its lanes; of the west loop only those on the west half (R271). -/
def slotsTaken (s : State) (ring : Nat) : Nat :=
  let fl := smGet [] s.fabric.flight ring
  if s.power.eastClosed then (fl.filter (fun x => !x.east)).length
  else fl.length + (laneAt s ring true).length + (laneAt s ring false).length

/-- The reservations that go round with a ring's slots, in their order; those of east stops wait while the rings are closed into west loops (R266,
R271; the rules do not speak of them. DESIGN CHOICE, log 77). -/
def reservations (s : State) (ring : Nat) : List Nat :=
  (smGet [] s.fabric.reserved ring).filter (fun p => !(s.power.eastClosed && eastStop p))

/-- The ring has a slot for this stop: stops with earlier reservations go first (R262, R266). -/
def slotFor (s : State) (stop ring : Nat) : Bool :=
  let res := reservations s ring
  decide (((indexIn stop res).getD res.length) < ringSlots s - slotsTaken s ring)

/-- A channel of a stop has a flit for the ring, with credits, that may go. -/
def ringReady (s : State) (stop ring v : Nat) : Bool :=
  match ringHead s stop ring v with
  | some (it, _) => !heldWest s it && hasCredits s it ring
  | none => false

/-- The next grant of the round robin at a stop. -/
def ringGrant (ready : Nat → Bool) (w : List Nat) : Nat → Nat → Nat → Option (Nat × Nat)
  | 0, _, _ => none
  | n + 1, turn, taken =>
    if ready turn && decide (taken < (w[turn]?).getD 1) then some (turn, taken + 1)
    else ringGrant ready w n ((turn + 1) % 5) 0

/-- The half of a stop is clocked. -/
def stopRuns (s : State) (stop : Nat) : Bool := clockRuns s (eastStop stop)

/-- An item begins to wait for the seam (R268, R271): logged once for the half it leads to, with that half's throttle step, and counted as an
exception (R296). No code of the event table names a seam wait; it takes that of the other events of its row. DESIGN CHOICE, log 99. -/
def seamWait (east : Bool) (id : Nat) (s : State) : State :=
  if s.fabric.items.any (fun it => it.id == id && !it.waited) then
    let t := { s with fabric := { s.fabric with items := s.fabric.items.map (fun it => if it.id = id then { it with waited := true } else it) } }
    logEv 0x0903 (if east then 0x61 else 0x60) (if east then 1 else 0) (if east then s.power.stepE else s.power.stepW).toNat t
  else s

/-- Flits bound for a closed east half wait and raise a request for it (R271, R356). -/
def wantEast (s : State) : State :=
  if s.power.eastStopped then { s with power := { s.power with eastWanted := true } } else demand 61 s

/-- A flit enters the ring: it takes a slot and a credit at each destination (R264), and leaves its link's receive buffer (R254, `rxOccupied`). -/
def injectRing (stop ring v taken : Nat) (it : RingItem) (f : Nat) (s : State) : State :=
  let used := it.dests.foldl (fun m d => smMod 0 m (creditKey d stop v ring) (· + 1)) s.fabric.ejectUsed
  { s with fabric := { s.fabric with
    items := s.fabric.items.map (fun x => if x.id = it.id then { x with sent := x.sent ++ [f] } else x),
    flight := smMod [] s.fabric.flight ring (fun l => l ++
      [{ item := it.id, flit := f, src := stop, east := eastStop stop, cross := crossings s it }]),
    reserved := smMod [] s.fabric.reserved ring (fun l => l.erase stop),
    ejectUsed := used,
    turns := smSet (0, 0) s.fabric.turns (8 * stop + ring) (v, taken),
    segBeats :=
      if segShare s stop ≠ 0 ∧ 0x40 ≤ unitAt stop ∧ unitAt stop ≤ 0x4F then smMod 0 s.fabric.segBeats stop (· + 4) else s.fabric.segBeats } }

/-- RING_INJECT (R264). With nothing ready the turn of the round robin has ended (R255). -/
def execRingInject (stop : Fin 49) (ring : Fin 8) (s : State) : Host.Outcome State Fault Refusal :=
  let p := stop.val
  let r := ring.val
  let waits := [0, 1, 2, 3, 4].filterMap (fun v => (ringHead s p r v).bind (fun h => if heldWest s h.1 then some h.1.id else none))
  let s0 := if !waits.isEmpty && stopRuns s p then wantEast (forEach waits s (seamWait true)) else s
  let turn := smGet (0, 0) s.fabric.turns (8 * p + r)
  let idle := fun (t : State) => if (List.range 5).any (fun v => (ringHead s p r v).isSome) then addCycles (0x38000 + 0x40 * p + 8 * r) t else t
  done s (if !stopRuns s p then s0
    else if s.power.bankDrains || segFull s p || !slotFor s p r then idle s0
    else match ringGrant (ringReady s p r) (weights s) 7 turn.1 turn.2 with
      | none => idle { s0 with fabric := { s0.fabric with turns := smSet (0, 0) s0.fabric.turns (8 * p + r) ((turn.1 + 1) % 5, 0) } }
      | some (v, n) => (match ringHead s p r v with
          | some (it, f) => injectRing p r v n it f s0
          | none => s0))

/-- RING_RESERVATION: a stop that has waited 64 fast cycles to inject reserves a slot (R266). -/
def execRingReservation (stop : Fin 49) (ring : Fin 8) (s : State) : Host.Outcome State Fault Refusal :=
  let p := stop.val
  let r := ring.val
  done s (if stopRuns s p && !(smGet [] s.fabric.reserved r).contains p &&
      [0, 1, 2, 3, 4].any (fun v => match ringHead s p r v with
        | some (it, _) => !heldWest s it
        | none => false) then
      { s with fabric := { s.fabric with reserved := smMod [] s.fabric.reserved r (fun l => l ++ [p]) } }
    else s)

/-! ### Ejection and the seam -/

/-- A flit reaches its destinations: its credits return, and with the last flit of the item what it carries arrives (R263, R267); an item
of an abandoned attempt is discarded there, which is counted and logged (R182, R273). A flit of a partial is progress for the node (R403). -/
def ejectFlit (ring : Nat) (fl : RingFlit) (s0 : State) : State :=
  match s0.fabric.items.find? (fun it => it.id == fl.item) with
  | none => s0
  | some it =>
    let s := match it.item.body with
      | .cord c => if it.void then s0 else heard it.item.src it.vc c s0
      | _ => s0
    let used := it.dests.foldl (fun m d => smMod 0 m (creditKey d it.src it.vc ring) (· - 1)) s.fabric.ejectUsed
    let n := it.arrived + 1
    if n < (if it.void then it.sent.length else it.flits) then
      { s with fabric := { s.fabric with ejectUsed := used,
                                         items := s.fabric.items.map (fun x => if x.id = it.id then { x with arrived := n } else x) } }
    else
      let t := { s with fabric := { s.fabric with ejectUsed := used, items := s.fabric.items.filter (fun x => x.id != it.id) } }
      if it.void then (match it.item.body with
        | .cord c => discard (cPlan c) (cIdx c) 3 (unitAt (it.dests.headD 0)) t
        | .root c => discard (cPlan c) (cIdx c) 3 (unitAt (it.dests.headD 0)) t
        | _ => t)
      else forEach it.dests t (fun d u => ejectAt d it u)

/-- Flits that a lane takes or gives in an ember cycle: 16 fast cycles at 1.6 GHz are 4 flits, one less for each throttle step of the half
that writes or reads it (R268, R269). -/
def laneRate (s : State) (east : Bool) : Nat :=
  if clockRuns s east then 4 - (if east then s.power.stepE else s.power.stepW).toNat else 0

/-- The oldest flits of a lane leave it into the half that reads it. -/
def leaveLane (ring : Nat) (east : Bool) (s : State) : State :=
  let l := laneAt s ring east
  let k := laneRate s east
  { s with fabric := { s.fabric with
    lanes := smSet [] s.fabric.lanes (laneKey ring east) (l.drop k),
    flight := smMod [] s.fabric.flight ring (fun x => x ++ (l.take k).map (fun fl => { fl with east := east, cross := fl.cross.drop 1 })) } }

/-- The item of a flit. -/
def itemOf (s : State) (fl : RingFlit) : Option RingItem := s.fabric.items.find? (fun it => it.id == fl.item)

/-- A flit leaves the ring now: the halves of its destinations are clocked, and each destination has ejected fewer flits of the ring in the
ember cycle than one beat in each fast cycle gives (R264). -/
def landsNowOn (s : State) (out : SMap Nat) (fl : RingFlit) : Bool :=
  (itemOf s fl).all (fun it => it.dests.all (fun d => stopRuns s d && decide (smGet 0 out d < laneRate s (eastStop d))))

/-- A flit has left the ring: it counts at its stops (R264). -/
def countEject (s : State) (out : SMap Nat) (fl : RingFlit) : SMap Nat :=
  (itemOf s fl).elim out (fun it => it.dests.foldl (fun m d => smMod 0 m d (· + 1)) out)

/-- A flit in its ejection buffer goes on now: a landing when it finds a share of its segments' limit (R265). -/
def shareFor (s : State) (fl : RingFlit) : Bool :=
  (itemOf s fl).all (fun it => it.leaves.isEmpty || it.dests.all (fun d => !segFull s d))

/-- A landing has used its share (R265). -/
def chargeShare (fl : RingFlit) (s : State) : State :=
  match itemOf s fl with
  | some it =>
    let segs := if it.leaves.isEmpty then [] else it.dests.filter (fun d => decide (0x40 ≤ unitAt d) && decide (unitAt d ≤ 0x4F))
    { s with fabric := { s.fabric with segBeats := segs.foldl (fun m d => smMod 0 m d (· + 4)) s.fabric.segBeats } }
  | none => s

/-- A flit leaves its ejection buffer, or waits in it for a share. -/
def fromBuffer (ring : Nat) (fl : RingFlit) (s : State) : State :=
  if shareFor s fl then ejectFlit ring fl (chargeShare fl s)
  else { s with fabric := { s.fabric with ejection := smMod [] s.fabric.ejection ring (fun l => l ++ [fl]) } }

/-- What is left of a flit's way over the seam: with the rings closed into west loops it turns round in the bridge (R271). -/
def crossLeft (s : State) (fl : RingFlit) : List Bool := if s.power.eastClosed && !fl.east then [] else fl.cross

/-- The flits of a ring move, oldest first: one with no lane to cross is ejected, another enters its lane while the lane has an entry and
the sending half a cycle for it. `east` and `west` count the flits that entered a lane from that half; once a flit holds for lack of an entry
every stage behind it in its half holds too (R269). -/
def moveRing (ring : Nat) : List RingFlit → SMap Nat → Nat → Nat → Bool → Bool → State → State
  | [], _, _, _, _, _, s => s
  | fl :: rest, out, east, west, holdE, holdW, s =>
    let stay := fun (u : State) => { u with fabric := { u.fabric with flight := smMod [] u.fabric.flight ring (fun l => l ++ [fl]) } }
    if (if fl.east then holdE else holdW) || !clockRuns s fl.east then moveRing ring rest out east west holdE holdW (stay s)
    else match crossLeft s fl with
      | [] =>
        if !landsNowOn s out fl then moveRing ring rest out east west holdE holdW (stay s)
        else moveRing ring rest (countEject s out fl) east west holdE holdW (fromBuffer ring fl s)
      | d :: _ =>
        if laneFull s ring d then moveRing ring rest out east west (holdE || fl.east) (holdW || !fl.east) (seamWait d fl.item (stay s))
        else if laneRate s fl.east ≤ (if fl.east then east else west) then moveRing ring rest out east west holdE holdW (stay s)
        else moveRing ring rest out (if fl.east then east + 1 else east) (if fl.east then west else west + 1) holdE holdW
          { s with fabric := { s.fabric with lanes := smMod [] s.fabric.lanes (laneKey ring d) (fun l => l ++ [fl]) } }

/-- What waits in the ejection buffers of a ring goes on, oldest first, as far as there are shares. -/
def emptyBuffers (ring : Nat) (s : State) : State :=
  forEach (smGet [] s.fabric.ejection ring) { s with fabric := { s.fabric with ejection := smSet [] s.fabric.ejection ring [] } } (fromBuffer ring)

/-- One ring in an ember cycle: its ejection buffers and its lanes give, then its flits move. -/
def ringCycle (ring : Nat) (s : State) : State :=
  let s1 := leaveLane ring false (leaveLane ring true (emptyBuffers ring s))
  moveRing ring (smGet [] s1.fabric.flight ring) [] 0 0 false false { s1 with fabric := { s1.fabric with flight := smSet [] s1.fabric.flight ring [] } }

/-- What the rings do in an ember cycle; segment stops regain their share. -/
def ringEdge (s : State) : State :=
  let s1 := forEach (List.range 8) s ringCycle
  { s1 with fabric := { s1.fabric with segBeats := (s1.fabric.segBeats.map (fun p => (p.1, p.2 - segShare s1 p.1))).filter (fun p => p.2 != 0) } }

end Sys2Proof.Machine
end

