-- ==== Sys2Proof/Machine/Stalls.lean ====
section
/-! DEFINITION. Stalls.lean: the skew and smoulder timers, stall reports and the firebreak (R402 to R406). -/

namespace Sys2Proof.Machine

/-! ### The skew timer (R402) -/

/-- COLD_SKEW_WARN of a level (R318). -/
def coldSkew (s : State) (l : Nat) : Nat := ((s.image.bind (fun im => im.cold[l]?)).map Prod.fst).getD 0

/-- COLD_SMOULDER_WARN of a level. -/
def coldSmoulder (s : State) (l : Nat) : Nat := ((s.image.bind (fun im => im.cold[l]?)).map Prod.snd).getD 0

/-- The skew threshold of a group at a level: SKEW_FACTOR times the median of the last 16 attempts, or the cold-start bound until they
exist. -/
def skewThreshold (s : State) (g : GroupDef) (l : Nat) : Nat :=
  let h := smGet [] s.kindle.skews l
  if h.length < 16 then coldSkew s l else g.skewFactor * median16 h

/-- How long an open index has waited since its first child's cord, pauses left out (R385). -/
def skewWait (s : State) (o : OpenCord) : Nat :=
  s.time.tick.toNat - o.firstTick.toNat - (pausedTotal s - o.pausedBase)

/-- A cord's wait passes the threshold: LATE on the node's output, and one skew warning per node instance and attempt. -/
def skewWarn (plan : Nat) (n : NodeId) (c : Nat) (s : State) : State :=
  match findNode s plan n, (entryAt s plan).bind (fun e => (entryGroup s e).map (fun g => (e, g))) with
  | some x, some (e, g) =>
    (match findOpen x c with
      | none => s
      | some o =>
        let l := nodeLevel n
        if o.ops.isEmpty || decide ((cordChildren s e g n c).length ≤ o.ops.length) || s.faults.paused ||
            decide (skewWait s o ≤ skewThreshold s g l) then s
        else
          let s1 := modOpen plan n c (fun y => { y with late := true }) s
          if x.skewWarned then s1
          else logEv 0x0807 unitPE (argPC plan c) l (ctrAdd 0x428 1 (modNode plan n (fun y => { y with skewWarned := true }) s1)))
  | _, _ => s

/-- SKEW_WARNING (R402). -/
def execSkewWarning (plan : BitVec 12) (n : NodeId) (cord : BitVec 16) (s : State) : Host.Outcome State Fault Refusal :=
  done s (onlyIf (running s) s (skewWarn plan.toNat n cord.toNat))

/-! ### The smoulder timer (R403, R404) -/

/-- The warning time of a group (R404): the cold-start bound of its top level, or with history the lesser of half the hard bound and the
median launch-to-seal time. -/
def smoulderTime (s : State) (g : GroupDef) : Nat :=
  if s.kindle.durations.length < 16 then coldSmoulder s g.topLevel
  else min (g.boundMs * 100000 / 2) (median16 s.kindle.durations)

/-- The smoulder timers run: in OPEN or DONE and outside a pause (R385, R403). -/
def timersRun (s : State) : Bool := running s && !s.faults.paused && !s.faults.dieFailed

/-- How long an item has made no progress: since it began, since the launch tick at the earliest, or since the last progress event of what it waits
for; pauses left out (R385, R403). -/
def stillFor (s : State) (start : Nat × Nat) (key : Nat) : Nat :=
  let last := smGet (s.step.launch.toNat, s.step.pausedBase) s.faults.progress key
  let from_ := if start.1 ≤ last.1 then last else start
  s.time.tick.toNat - from_.1 - (pausedTotal s - from_.2)

/-- A smoulder item (R403): the culprit that it waits on, as die, tile and instance, and its level. -/
structure StallItem where
  die : Nat
  tile : Nat
  inst : Nat
  level : Nat
  deriving DecidableEq, Repr

/-- An item under its timer: its culprit, what it waits for, by `progKey`, and since when. -/
structure StallTimer where
  item : StallItem
  key : Nat
  start : Nat × Nat
  deriving DecidableEq, Repr

/-- When an index entered a node's window, or the first cord for one that came here in mid-step; by default with the attempt. -/
def sinceOpen (s : State) (x : NodeInst) (c : Nat) : Nat × Nat :=
  match findOpen x c with
  | some o => if x.taken.contains c then (o.firstTick.toNat, o.pausedBase) else entered x c
  | none => entered x c
where
  /-- The first value of the lowest open index whose window holds `c`. -/
  entered (x : NodeInst) (c : Nat) : Nat × Nat :=
    ((x.lows.find? (fun p => decide (c < p.1 + x.win))).map Prod.snd).getD (s.step.launch.toNat, s.step.pausedBase)

/-- The children whose cord a node instance still waits for in an index that is open at it. -/
def missingAt (s : State) (e : PlanEntry) (g : GroupDef) (x : NodeInst) (c : Nat) : List Nat :=
  if x.admitted && decide (c < x.cords) && handles s x c && inWin x c && !x.closed.contains c then
    (cordChildren s e g x.node c).filter (fun k => !((findOpen x c).any (fun o => o.ops.any (fun p => p.child == k))))
  else []

/-- The items of an operation and cord in a class of Table: Smoulder items, with the culprit that the table gives and their timers. -/
def stallTimers (s : State) (plan c cls : Nat) : List StallTimer :=
  match (entryAt s plan).bind (fun e => (entryGroup s e).map (fun g => (e, g))) with
  | none => []
  | some (e, g) =>
    let own := (myDie s).getD 0
    let die : StallItem := { die := own, tile := 0, inst := me s, level := 0 }
    let zero : Nat × Nat := (s.step.launch.toNat, s.step.pausedBase)
    let at_ := fun (p : Nat → Bool) => (s.kiln.nodes.filter (fun x => x.plan == plan && p x.node.stage.val)).flatMap (fun x =>
      (missingAt s e g x c).map (fun k => (x, k)))
    let tiles := fun (row : Nat) (p : Leaf → Bool) => (s.leaves.filter (fun q => p q.2)).map (fun q =>
      ({ item := { die with tile := tileIdx s q.1 }, key := progKey row 0 q.1, start := zero } : StallTimer))
    let node := fun (q : NodeInst × Nat) (i : StallItem) =>
      ({ item := i, key := progKey (8 + q.1.node.stage.val) plan q.2, start := sinceOpen s q.1 c } : StallTimer)
    let isC := fun (x : Cord) => cPlan x == plan && cIdx x == c
    match cls with
    | 0 => (at_ (· == 0)).map (fun q => node q { die with tile := q.2 })
    | 1 => tiles 1 (fun l => l.reading.any (fun r => !r.void && r.firing.plan == plan && r.firing.cord == c && !r.want.isEmpty)) ++
        tiles 2 (fun l => l.writing.any (fun w => !w.void && w.cord.any isC && !w.beats.isEmpty))
    | 2 => s.leaves.flatMap (fun q => (q.2.held.filter (fun h => isC h.cord)).map (fun h =>
        ({ item := { die with tile := tileIdx s q.1 }, key := heldKey q.1 h.cord, start := zero } : StallTimer)))
    | 3 => (at_ (· == 1)).map (fun q => { item := die, key := progKey 4 0 q.2, start := sinceOpen s q.1 c })
    | 4 => (at_ (decide <| 2 ≤ ·)).map (fun q =>
        let l := q.1.node.stage.val
        if l = 2 then node q { die := q.2, tile := 0, inst := holderOf s q.2, level := 1 }
        else
          let i := (siteOf s.kiln.places g.num (l - 2) q.2 c).getD 0xFFFFFF
          node q { die := (dieOfInst s i).getD 0, tile := 0, inst := i, level := l - 1 })
    | _ => (blockDoms.filter (fun d => (dom s d).req && !(dom s d).gnt)).map (fun d =>
        let asked := smGet zero s.power.reqSince d
        { item := die, key := progKey 5 0 d, start := if zero.1 ≤ asked.1 then asked else zero })

/-- The items whose timers stand at `time` of their group or beyond it. -/
def smoulders (s : State) (plan c cls : Nat) (time : GroupDef → Nat) : List StallTimer :=
  match (entryAt s plan).bind (entryGroup s) with
  | some g => if timersRun s then (stallTimers s plan c cls).filter (fun t => decide (time g ≤ stillFor s t.start t.key)) else []
  | none => []

/-- The items that are to warn: each once in an attempt. -/
def toWarn (s : State) (plan c cls : Nat) : List StallTimer :=
  (smoulders s plan c cls (smoulderTime s)).filter (fun t => !s.faults.warned.contains (plan, c, cls, t.key))

/-- An item without progress for its warning time warns once. -/
def smoulderWarn (plan c cls : Nat) (t : StallTimer) (s : State) : State :=
  logEv 0x0808 unitPE (argPC plan c) (cls + 1)
    (ctrAdd 0x430 1 { s with faults := { s.faults with warned := s.faults.warned ++ [(plan, c, cls, t.key)] } })

/-- SMOULDER_WARNING (R404): of the first item of the class that is to warn. -/
def execSmoulderWarning (plan : BitVec 12) (cord : BitVec 16) (itemClass : Fin 6) (s : State) : Host.Outcome State Fault Refusal :=
  done s (withSome (toWarn s plan.toNat cord.toNat itemClass.val).head? s (smoulderWarn plan.toNat cord.toNat itemClass.val))

/-- A FIREBREAK message (Table: FIREBREAK body). -/
def mkFirebreak (s : State) (dest kind group seq die tile cls level plan cord inst epoch waited crc : Nat) : Msg :=
  { m0 := mkM0 s 5 dest,
    m1 := putField 56 8 kind ||| putField 48 8 group ||| putField 0 32 seq,
    m2 := stepContext s,
    m3 := putField 48 16 die ||| putField 38 10 tile ||| putField 36 2 cls ||| putField 32 4 level ||| putField 20 12 plan |||
      putField 0 16 cord,
    m4 := putField 40 24 inst ||| putField 24 16 epoch,
    m5 := putField 32 32 waited ||| putField 0 32 crc, m6 := 0, m7 := 0 }

/-- CULPRIT_TILE. -/
def fbTile (m : Msg) : Nat := fieldOf m.m3 38 10
/-- CULPRIT_CLASS. -/
def fbClass (m : Msg) : Nat := fieldOf m.m3 36 2
/-- LEVEL of the waiting item. -/
def fbLevel (m : Msg) : Nat := fieldOf m.m3 32 4
/-- PLAN_INDEX. -/
def fbPlan (m : Msg) : Nat := fieldOf m.m3 20 12
/-- CORD_INDEX. -/
def fbCord (m : Msg) : Nat := fieldOf m.m3 0 16
/-- CULPRIT_INSTANCE. -/
def fbInst (m : Msg) : Nat := fieldOf m.m4 40 24
/-- NEW_EPOCH. -/
def fbEpoch (m : Msg) : Nat := fieldOf m.m4 24 16

/-- CULPRIT_CLASS of an item (Table: Smoulder items): 0 tile, 1 die, 2 placement. -/
def culpritClass (cls level : Nat) : Nat :=
  if cls < 3 then 0 else if cls = 4 ∧ 2 ≤ level then 2 else 1

/-- At the hard bound the instance logs and sends a STALL_REPORT to the coordinator. -/
def smoulderBound (plan c cls culprit tile inst level : Nat) (s : State) : State :=
  match (entryAt s plan).bind (entryGroup s) with
  | none => s
  | some g =>
    let co := coordinator s
    let s1 := logEv 0x0809 unitPE (argPC plan c) g.boundMs s
    route co (mkFirebreak s co 1 g.num 0 culprit tile (culpritClass cls level) level plan c inst 0 g.boundMs 0) s1

/-- SMOULDER_BOUND (R404): of an item with that culprit. -/
def execSmoulderBound (plan : BitVec 12) (cord : BitVec 16) (itemClass : Fin 6) (culprit : BitVec 16) (tile : BitVec 10)
    (inst : BitVec 24) (level : Fin 5) (s : State) : Host.Outcome State Fault Refusal :=
  done s (onlyIf (((smoulders s plan.toNat cord.toNat itemClass.val (fun g => g.boundMs * 100000)).map (·.item)).contains
      { die := culprit.toNat, tile := tile.toNat, inst := inst.toNat, level := level.val }) s
    (smoulderBound plan.toNat cord.toNat itemClass.val culprit.toNat tile.toNat inst.toNat level.val))

/-! ### Stall reports and the firebreak (R405) -/

/-- A firebreak is already part of the attempt's decision. -/
def firebroken (s : State) : Bool :=
  match s.step.decided with
  | some (r, _) => (lane r 8 &&& uFirebreak) != 0
  | none => false

/-- A report names a die that has failed already: its index is removed, in a stand-in procedure, or held by another instance (R409). -/
def culpritGone (m : Msg) (s : State) : Bool :=
  fbClass m != 2 && (fieldOf (memberWord s (pcDie m)) 62 2 != 1 || holderOf s (pcDie m) != fbInst m ||
    s.faults.offers.any (fun o => o.die == pcDie m))

/-- The coordinator takes a report of the running attempt into its collection window; the first opens it. -/
def reportIn (m : Msg) (s : State) : State :=
  if m.m2 ≠ stepContext s ∨ !running s ∨ firebroken s ∨ culpritGone m s then s
  else { s with faults := { s.faults with reports := s.faults.reports ++ [m],
                                          collecting := match s.faults.collecting with
                                            | some t => some t
                                            | none => some s.time.tick } }

/-- STALL_REPORT. -/
def execStallReport (i : Nat) (s : State) : Host.Outcome State Fault Refusal :=
  done s (takeMgmt i 5 (fun _ m t => if pcKind m = 1 then coordOnly reportIn m t else t) s)

/-- A report is set aside when its culprit sent a report in the window that does not name itself. -/
def setAside (l : List Msg) (r : Msg) : Bool :=
  let own := l.filter (fun x => mSrc x == fbInst r)
  !own.isEmpty && !own.any (fun x => fbInst x == fbInst r)

/-- Order of choice: class, then CULPRIT_DIE, then CULPRIT_TILE. -/
def choiceKey (m : Msg) : Nat := fbClass m * 2 ^ 26 + pcDie m * 2 ^ 10 + fbTile m

/-- The chosen report. -/
def chooseReport (l : List Msg) : Option Msg :=
  (l.filter (fun r => !setAside l r)).foldl (fun b r => match b with
    | some x => if choiceKey r < choiceKey x then some r else some x
    | none => some r) none

/-- An applied FIREBREAK (R405): epochs advance for a tile or die; the tile is spliced, the die fails with cause 0x07, or the placement
leaves the working lists it stands in one level below the waiting item (log 46). -/
def applyFirebreak (m : Msg) (s : State) : State :=
  let d := pcDie m
  let cls := fbClass m
  let s1 := setPend 0x08 (logEv 0x0804 unitPE (d * 65536 + fbTile m) cls s)
  let s2 := if cls ≤ 1 then applyEpochs d (fbEpoch m) (fieldOf m.m5 0 32) s1 else s1
  let mine := myDie s2 == some d && fbInst m == me s2
  if cls = 0 then (if mine then withSome ((physOf s2 (fbTile m)).bind (fun t => spliceTile t s2)) s2 (fun t _ => t) else s2)
  else if cls = 1 then (if mine then dieFail 7 s2 else s2)
  else match groupNow s2 (pcGroup m) with
    | none => s2
    | some g => forEach (s2.kiln.places.filter (fun p => p.group == g.num && decide (p.level + 1 = fbLevel m) &&
        p.entries.contains (fbInst m))) s2 (fun p t => unlist g p.level p.coord (fbInst m) t)

/-- The coordinator floods FIREBREAK for a chosen report and raises FIREBREAK on the attempt. -/
def floodFirebreak (r : Msg) (s : State) : State :=
  let ea := epochsAfter s (pcDie r)
  let tileOrDie := decide (fbClass r ≤ 1)
  let crc := if tileOrDie then ea.2 else epochCrc s.tables.epochs
  raiseAtRoot uFirebreak (floodChange (fun q => mkFirebreak s 0 2 (pcGroup r) q (pcDie r) (fbTile r) (fbClass r) (fbLevel r) (fbPlan r)
    (fbCord r) (fbInst r) (if tileOrDie then ea.1 else 0) (fieldOf r.m5 32 32) crc.toNat) applyFirebreak s)

/-- STALL_COLLECTION_END (R405): 100,000 ticks after the first report. -/
def collectionEnd (s : State) : State :=
  match s.faults.collecting with
  | none => s
  | some t =>
    if s.time.tick.toNat < t.toNat + 100000 then s
    else
      let s1 := { s with faults := { s.faults with reports := [], collecting := none } }
      withSome (chooseReport s.faults.reports) s1 floodFirebreak

/-- STALL_COLLECTION_END. -/
def execStallCollectionEnd (s : State) : Host.Outcome State Fault Refusal :=
  done s (onlyIf (isCoordinator s && !s.faults.dieFailed) s collectionEnd)

/-- FIREBREAK. -/
def execFirebreak (i : Nat) (s : State) : Host.Outcome State Fault Refusal :=
  done s (takeMgmt i 5 (fun a m t => if pcKind m = 2 then applyFlooded a m (applyFirebreak m) t else t) s)

end Sys2Proof.Machine
end

