-- ==== Sys2Proof/Machine/Dispatch.lean ====
section
/-! DEFINITION. Dispatch.lean: the meaning of every command, one arm per row of spec/opcode_table.json. -/

namespace Sys2Proof.Machine

/-- The effect of one command on everything but the queue. -/
def exec (i : Instr) (s : State) : Host.Outcome State Fault Refusal :=
  match i with
  | .kindleReq v => Sys2Proof.Machine.execKindleReq v s
  | .anchorLock v => Sys2Proof.Machine.execAnchorLock v s
  | .trustAnchorWrite k v => Sys2Proof.Machine.execTrustAnchorWrite k v s
  | .instanceIdWrite v => Sys2Proof.Machine.execInstanceIdWrite v s
  | .disabledTilesWrite k v => Sys2Proof.Machine.execDisabledTilesWrite k v s
  | .stepNumberWrite v => Sys2Proof.Machine.execStepNumberWrite v s
  | .jobSeedWrite hi v => Sys2Proof.Machine.execJobSeedWrite hi v s
  | .launchTickWrite v => Sys2Proof.Machine.execLaunchTickWrite v s
  | .launchArm v => Sys2Proof.Machine.execLaunchArm v s
  | .tickSet v => Sys2Proof.Machine.execTickSet v s
  | .tickRead => Sys2Proof.Machine.execTickRead s
  | .stopReq v => Sys2Proof.Machine.execStopReq v s
  | .bankReq v => Sys2Proof.Machine.execBankReq v s
  | .wakeReq v => Sys2Proof.Machine.execWakeReq v s
  | .emberReq v => Sys2Proof.Machine.execEmberReq v s
  | .recoveryDone v => Sys2Proof.Machine.execRecoveryDone v s
  | .spliceReq v => Sys2Proof.Machine.execSpliceReq v s
  | .failDieReq v => Sys2Proof.Machine.execFailDieReq v s
  | .spliceWrite k v => Sys2Proof.Machine.execSpliceWrite k v s
  | .memberWrite x v => Sys2Proof.Machine.execMemberWrite x v s
  | .groupEpochWrite g v => Sys2Proof.Machine.execGroupEpochWrite g v s
  | .sealStatusW1c v => Sys2Proof.Machine.execSealStatusW1c v s
  | .faultPendingW1c v => Sys2Proof.Machine.execFaultPendingW1c v s
  | .clearCounters v => Sys2Proof.Machine.execClearCounters v s
  | .logReadSeqWrite v => Sys2Proof.Machine.execLogReadSeqWrite v s
  | .freezeArm v => Sys2Proof.Machine.execFreezeArm v s
  | .localArm v => Sys2Proof.Machine.execLocalArm v s
  | .snapRelease v => Sys2Proof.Machine.execSnapRelease v s
  | .injEnableWrite v => Sys2Proof.Machine.execInjEnableWrite v s
  | .injArm j v => Sys2Proof.Machine.execInjArm j v s
  | .injDisarm j v => Sys2Proof.Machine.execInjDisarm j v s
  | .injectorRegWrite j r v => Sys2Proof.Machine.execInjectorRegWrite j r v s
  | .rewidenReq p v => Sys2Proof.Machine.execRewidenReq p v s
  | .tallyT0Read t prev e => Sys2Proof.Machine.execTallyT0Read t prev e s
  | .registerWrite addr v => Sys2Proof.Machine.execRegisterWrite addr v s
  | .unmappedAccess addr write => Sys2Proof.Machine.execUnmappedAccess addr write s
  | .coldAccess addr write => Sys2Proof.Machine.execColdAccess addr write s
  | .testRegisterAccess addr write v => Sys2Proof.Machine.execTestRegisterAccess addr write v s
  | .rstNLow => Sys2Proof.Machine.execRstNLow s
  | .rstNHigh => Sys2Proof.Machine.execRstNHigh s
  | .testModeRise => Sys2Proof.Machine.execTestModeRise s
  | .testModeFall => Sys2Proof.Machine.execTestModeFall s
  | .pdGntRise d => Sys2Proof.Machine.execPdGntRise d s
  | .pdGntFall d => Sys2Proof.Machine.execPdGntFall d s
  | .powerFault d => Sys2Proof.Machine.execPowerFault d s
  | .pllLock h => Sys2Proof.Machine.execPllLock h s
  | .pllLockLost h => Sys2Proof.Machine.execPllLockLost h s
  | .throttleChange h code => Sys2Proof.Machine.execThrottleChange h code s
  | .seamReopen => Sys2Proof.Machine.execSeamReopen s
  | .lossOfLock lane => Sys2Proof.Machine.execLossOfLock lane s
  | .trainDone p rate lanes => Sys2Proof.Machine.execTrainDone p rate lanes s
  | .serErrPulse lane => Sys2Proof.Machine.execSerErrPulse lane s
  | .laneSerExceeded lane => Sys2Proof.Machine.execLaneSerExceeded lane s
  | .adapterLinkDown u => Sys2Proof.Machine.execAdapterLinkDown u s
  | .peerSignalSeen l => Sys2Proof.Machine.execPeerSignalSeen l s
  | .peerSignalLoss l => Sys2Proof.Machine.execPeerSignalLoss l s
  | .pcsLinkUp p => Sys2Proof.Machine.execPcsLinkUp p s
  | .counterAdd t op sel amt => Sys2Proof.Machine.execCounterAdd t op sel amt s
  | .counterRead t sel => Sys2Proof.Machine.execCounterRead t sel s
  | .heldCordRelease t e => Sys2Proof.Machine.execHeldCordRelease t e s
  | .cordReadStart t => Sys2Proof.Machine.execCordReadStart t s
  | .readGrant t => Sys2Proof.Machine.execReadGrant t s
  | .readData t data => Sys2Proof.Machine.execReadData t data s
  | .stagingStall t => Sys2Proof.Machine.execStagingStall t s
  | .writeGrant t => Sys2Proof.Machine.execWriteGrant t s
  | .cordLand t => Sys2Proof.Machine.execCordLand t s
  | .landingStall t => Sys2Proof.Machine.execLandingStall t s
  | .stepOpen h => Sys2Proof.Machine.execStepOpen h s
  | .admissionRetest => Sys2Proof.Machine.execAdmissionRetest s
  | .admitNotice q => Sys2Proof.Machine.execAdmitNotice q s
  | .armNotice q => Sys2Proof.Machine.execArmNotice q s
  | .cordArrive q ecc => Sys2Proof.Machine.execCordArrive q ecc s
  | .combineDone plan n cord residueOk ecc => Sys2Proof.Machine.execCombineDone plan n cord residueOk ecc s
  | .finishCord q => Sys2Proof.Machine.execFinishCord q s
  | .descendingCord q => Sys2Proof.Machine.execDescendingCord q s
  | .mirrorAck q => Sys2Proof.Machine.execMirrorAck q s
  | .restore q => Sys2Proof.Machine.execRestore q s
  | .localCompletion => Sys2Proof.Machine.execLocalCompletion s
  | .sealContribution q => Sys2Proof.Machine.execSealContribution q s
  | .earlyRequest q => Sys2Proof.Machine.execEarlyRequest q s
  | .sealBroadcastReceive q => Sys2Proof.Machine.execSealBroadcastReceive q s
  | .launchCheck q => Sys2Proof.Machine.execLaunchCheck q s
  | .launchCheckResult q => Sys2Proof.Machine.execLaunchCheckResult q s
  | .openLead => Sys2Proof.Machine.execOpenLead s
  | .planPreheat plan => Sys2Proof.Machine.execPlanPreheat plan s
  | .preheatHoldEnd plan => Sys2Proof.Machine.execPreheatHoldEnd plan s
  | .demandWake d => Sys2Proof.Machine.execDemandWake d s
  | .cool d => Sys2Proof.Machine.execCool d s
  | .grantLate d cycles => Sys2Proof.Machine.execGrantLate d cycles s
  | .grantAbsent d => Sys2Proof.Machine.execGrantAbsent d s
  | .scrubRead b ecc => Sys2Proof.Machine.execScrubRead b ecc s
  | .flitTransmit l => Sys2Proof.Machine.execFlitTransmit l s
  | .flitReceive l chk flit => Sys2Proof.Machine.execFlitReceive l chk flit s
  | .nakRepeat p => Sys2Proof.Machine.execNakRepeat p s
  | .ackVisibility p => Sys2Proof.Machine.execAckVisibility p s
  | .ackTimeout p => Sys2Proof.Machine.execAckTimeout p s
  | .retrainTimeout p => Sys2Proof.Machine.execRetrainTimeout p s
  | .trainingTimeout l => Sys2Proof.Machine.execTrainingTimeout l s
  | .peerWaitExpiry l => Sys2Proof.Machine.execPeerWaitExpiry l s
  | .linkId q => Sys2Proof.Machine.execLinkId q s
  | .degradeReq q => Sys2Proof.Machine.execDegradeReq q s
  | .degradeAck q => Sys2Proof.Machine.execDegradeAck q s
  | .spareTake q => Sys2Proof.Machine.execSpareTake q s
  | .spareAck q => Sys2Proof.Machine.execSpareAck q s
  | .window q => Sys2Proof.Machine.execWindow q s
  | .drain q => Sys2Proof.Machine.execDrain q s
  | .ringInject stop ring => Sys2Proof.Machine.execRingInject stop ring s
  | .ringReservation stop ring => Sys2Proof.Machine.execRingReservation stop ring s
  | .fragmentReceive p f => Sys2Proof.Machine.execFragmentReceive p f s
  | .hallAck p f => Sys2Proof.Machine.execHallAck p f s
  | .hallAckTimer p flow => Sys2Proof.Machine.execHallAckTimer p flow s
  | .hallRetransmit p flow seq => Sys2Proof.Machine.execHallRetransmit p flow seq s
  | .flowDown p flow => Sys2Proof.Machine.execFlowDown p flow s
  | .hallEstablishAck p => Sys2Proof.Machine.execHallEstablishAck p s
  | .timeExchangeSend l flow txTime => Sys2Proof.Machine.execTimeExchangeSend l flow txTime s
  | .timeExchange q rxTime => Sys2Proof.Machine.execTimeExchange q rxTime s
  | .timeLoss => Sys2Proof.Machine.execTimeLoss s
  | .holdoverExpiry => Sys2Proof.Machine.execHoldoverExpiry s
  | .nvmDiscover d => Sys2Proof.Machine.execNvmDiscover d s
  | .imageReadDone bytes readUs => Sys2Proof.Machine.execImageReadDone bytes readUs s
  | .authenticate => Sys2Proof.Machine.execAuthenticate s
  | .checkAndLoad badWord => Sys2Proof.Machine.execCheckAndLoad badWord s
  | .treeBuild => Sys2Proof.Machine.execTreeBuild s
  | .kilnInitSelfTest r => Sys2Proof.Machine.execKilnInitSelfTest r s
  | .kindleStageTimeout => Sys2Proof.Machine.execKindleStageTimeout s
  | .logFillDone => Sys2Proof.Machine.execLogFillDone s
  | .failedLinkSilence => Sys2Proof.Machine.execFailedLinkSilence s
  | .dieFailed q => Sys2Proof.Machine.execDieFailed q s
  | .entryFailed q => Sys2Proof.Machine.execEntryFailed q s
  | .hearthSuccession q => Sys2Proof.Machine.execHearthSuccession q s
  | .standinOffer q => Sys2Proof.Machine.execStandinOffer q s
  | .standinAccept q => Sys2Proof.Machine.execStandinAccept q s
  | .standinDecline q => Sys2Proof.Machine.execStandinDecline q s
  | .offerTimeout => Sys2Proof.Machine.execOfferTimeout s
  | .standinCommit q => Sys2Proof.Machine.execStandinCommit q s
  | .reform q => Sys2Proof.Machine.execReform q s
  | .hold q => Sys2Proof.Machine.execHold q s
  | .holdAck q => Sys2Proof.Machine.execHoldAck q s
  | .holdRelease q => Sys2Proof.Machine.execHoldRelease q s
  | .holdOpen q => Sys2Proof.Machine.execHoldOpen q s
  | .holdClosed q => Sys2Proof.Machine.execHoldClosed q s
  | .recoveryTimeout die => Sys2Proof.Machine.execRecoveryTimeout die s
  | .skewWarning plan n cord => Sys2Proof.Machine.execSkewWarning plan n cord s
  | .smoulderWarning plan cord itemClass => Sys2Proof.Machine.execSmoulderWarning plan cord itemClass s
  | .smoulderBound plan cord itemClass culprit tile inst level => Sys2Proof.Machine.execSmoulderBound plan cord itemClass culprit tile inst level s
  | .stallReport q => Sys2Proof.Machine.execStallReport q s
  | .stallCollectionEnd => Sys2Proof.Machine.execStallCollectionEnd s
  | .firebreak q => Sys2Proof.Machine.execFirebreak q s
  | .logWrite => Sys2Proof.Machine.execLogWrite s
  | .logForward q => Sys2Proof.Machine.execLogForward q s
  | .freeze q => Sys2Proof.Machine.execFreeze q s
  | .freezePrewake => Sys2Proof.Machine.execFreezePrewake s
  | .freezeCapture => Sys2Proof.Machine.execFreezeCapture s
  | .reorderRelease j => Sys2Proof.Machine.execReorderRelease j s
  | .injectHoldEnd j => Sys2Proof.Machine.execInjectHoldEnd j s
  | .leafEntryParityError t => Sys2Proof.Machine.execLeafEntryParityError t s
  | .moduleTrainingDone u version rateGts => Sys2Proof.Machine.execModuleTrainingDone u version rateGts s
  | .imageHeaderRead bytes => Sys2Proof.Machine.execImageHeaderRead bytes s
  | .hopByHopForward q => Sys2Proof.Machine.execHopByHopForward q s

end Sys2Proof.Machine
end

