-- ==== Sys2Proof/Machine/Edge.lean ====
section
/-! DEFINITION. Edge.lean: what one edge of EMBER_CLK does while no command waits (log 5): the tick advances (R274), queued flits and frames
leave (R227, R257, R258), what waits for a link goes on
where it has one (R209), flits move along the rings (R262), and a stop of the east clock that waits for them is made (R356). -/

namespace Sys2Proof.Machine

/-- New flits leave while the replay buffer has room (R227, R257). -/
def sendQueued (k : Nat) : Nat → State → State
  | 0, s => s
  | n + 1, s =>
    if (linkAt s k).txq.isEmpty || replayFull s k || !flitsPass s k then s else sendQueued k n (leave k s)

/-- Frames leave. -/
def sendFrames (k : Nat) : Nat → State → State
  | 0, s => s
  | n + 1, s => if (linkAt s k).txFrames.isEmpty then s else sendFrames k n (ethLeave k s)

/-- A failed die sends nothing more on VC0 to VC3, replays among it (R379). -/
def dropFailed (k : Nat) (s : State) : State :=
  if s.faults.dieFailed then
    setLink k (fun l => { l with
      txq := l.txq.filter (fun f => f.ctrl || f.vc == 4),
      resend := l.resend.filter (fun f => f.ctrl || f.vc == 4),
      txFrames := l.txFrames.filter (fun f => frameChan f.type f.vc == 4) }) s
  else s

/-- What leaves a link in an ember cycle: a replay first (R229), then what is queued. -/
def wireEdge (k : Nat) (s : State) : State :=
  let s0 := dropFailed k s
  if isEth s0 k then (if ethLive s0 k then stampLeft k (linkAt s0 k).txFrames (sendFrames k (linkAt s0 k).txFrames.length s0) else s0)
  else if flitsPass s0 k then
    let again := (linkAt s0 k).resend
    let s1 := forEach again (setLink k (fun l => { l with resend := [] }) s0) (fun f t => sendFlit k f true t)
    stampLeft k [] (sendQueued k (linkAt s1 k).txq.length s1)
  else s0

/-- Nothing of the last edge is on the wires any more; a port keeps the bits that fill no word of a lane yet (R452). -/
def clearWires (s : State) : State :=
  forEach (s.links.map Prod.fst) s (fun k t => setLink k (fun l => { l with wire := [], line := [], linePart := laneRests l }) t)

/-- RP_ACK is 1 for one ember cycle (R430). -/
def endAck (s : State) : State := { s with rp := { s.rp with ack := false } }

/-- One edge of EMBER_CLK; with RST_N low or TEST_MODE high nothing but RP_ACK moves (R299, R459). -/
def emberEdge (s0 : State) : State :=
  let s := endAck s0
  if !portLive s then s
  else
    let s1 := advanceTick (clearWires s)
    let s2 := ringEdge (forEach (List.range 24) (unpark s1) wireEdge)
    kindleWoken (bankDrained (bankIfPending (settleAndTell (waitingStop s2))))

end Sys2Proof.Machine
end

