-- ==== Sys2Proof/Machine/Step.lean ====
section
/-! DEFINITION. Step.lean: a step takes the command at the front of the queue; with none waiting, EMBER_CLK has an edge (log 5). -/

namespace Sys2Proof.Machine

/-- One step of the block. -/
def step (s : State) : Host.Outcome State Fault Refusal :=
  match s.pending with
  | c :: rest => exec c { s with pending := rest }
  | [] => done s (emberEdge s)

/-- The state with the command that a word spells put at the front of its queue; no row of the table gives bits, so no word spells one. -/
def State.withFetchWord (s : State) (nbits w : Nat) : State :=
  match decodeTableWord nbits w with
  | some c => { s with pending := c :: s.pending }
  | none => s

end Sys2Proof.Machine
end

