-- ==== Sys2Proof/WellFormed.lean ====
section
/-! DEFINITION. WellFormed.lean: the operands that a command may carry, beyond what its types already say. -/

namespace Sys2Proof

/-- The low bits that are 0 in the coordinate of a node at a stage (Table: Tree construction by level, R37). -/
def wfShift (stage : Nat) : Nat :=
  if stage ≤ 1 then 0 else if stage = 2 then 3 else if stage = 3 then 6 else if stage = 4 then 10 else 16

/-- A node is named in one way (R37): a segment number only at an L0 segment node, and a coordinate whose lower digits are 0. -/
def wfNode (n : NodeId) : Bool :=
  (decide (n.stage.val = 0) || decide (n.seg.val = 0)) && decide (n.coord.toNat % 2 ^ wfShift n.stage.val = 0)

/-- A register address as RP_ADDR [24:3] carries it (R430). -/
def wfAddr (a : BitVec 25) : Bool := decide (a.toNat % 8 = 0)

/-- A command stands for something that can happen at the block's boundary: a register address is a multiple of 8 (R430), a flit has 256
bytes (R220), the first NVM read has 256 bytes (R306), an image has a length that its header can state (R308), a trained lane rate is a
rate of its PHY (R215), and a node is a node of the tree (R37). -/
def wellFormed : Instr → Bool
  | .registerWrite a _ => wfAddr a
  | .unmappedAccess a _ => wfAddr a
  | .coldAccess a _ => wfAddr a
  | .testRegisterAccess a _ _ => wfAddr a
  | .flitReceive _ _ flit => decide (flit.length = 256)
  | .imageHeaderRead bytes => decide (bytes.length = 256)
  | .imageReadDone bytes _ => decide (bytes.length % 64 = 0) && decide (4096 ≤ bytes.length) && decide (bytes.length ≤ 16777216)
  | .trainDone _ rate lanes => decide (rate.toNat < 3) && decide (lanes ≠ 0)
  | .moduleTrainingDone _ _ rateGts => [4, 8, 12, 16, 24, 32].contains rateGts.toNat
  | .combineDone _ n _ _ _ => wfNode n
  | .skewWarning _ n _ => wfNode n
  | _ => true

end Sys2Proof
end

