-- ==== Sys2Proof/Safety.lean ====
section
/-! DEFINITION. Safety.lean: what a state must have so that the block never stops, and the words in which the statements speak of a
step. -/

namespace Sys2Proof.Machine

/-- The integration parameters lie in the ranges of R456 and R126: RD_LATENCY is 2 to 8 fast cycles, and each PHY names one latency for
every rate it has. -/
def Params.legal (p : Params) : Bool :=
  decide (2 ≤ p.rdLatency) && decide (p.rdLatency ≤ 8) && decide (p.pmaTxLatPs.length = 3) && decide (p.pmaRxLatPs.length = 3) &&
    decide (p.fdiTxLatPs.length = 6) && decide (p.fdiRxLatPs.length = 6)

/-- The block is safe: its integration parameters are legal, and every command that waits is well formed. -/
def State.Safe (s : State) : Prop := s.params.legal = true ∧ ∀ c ∈ s.pending, wellFormed c = true

/-- A step did not stop the block. -/
def goesOn (o : Host.Outcome State Fault Refusal) : Bool :=
  match o with
  | .next _ => true
  | .fault _ => false
  | .refused _ => false

/-- A domain has been asked for: it is WARM, on its way there, or wanted again as soon as its grant or its half's clock allows (R341,
R345, R357). -/
def asked (s : State) (d : Nat) : Prop := domSt s d = .warm ∨ domSt s d = .waking ∨ (dom s d).wanted = true

/-- The register port has taken a write: it answers with read data 0 and RP_ERR 0 (R430). -/
def answered (s : State) : State := { s with rp := { s.rp with rdata := 0, err := false, ack := true } }

/-- An answer given to the 1687 instrument: the register port's RP_ACK is not raised (R430, R458). -/
def instrumentOnly (s t : State) : State := { t with rp := { t.rp with ack := s.rp.ack } }

/-- A state with the timers of the no-progress bounds (R403) as another state has them. -/
def timed (s t : State) : State := { s with faults := { s.faults with progress := t.faults.progress } }

/-- An event has joined the queue of the log, where the log works and has a place for it (R413). -/
def logged (s t : State) (code unit a b : Nat) : Prop :=
  s.log.disabled = false → s.log.queue.length < 63 → ∃ e ∈ t.log.queue, e.event = BitVec.ofNat 16 code ∧ e.unit = BitVec.ofNat 8 unit ∧
    e.argA = BitVec.ofNat 32 a ∧ e.argB = BitVec.ofNat 32 b

/-- The block's register port ignores a write: counted, with the offset kept (R434). -/
def ignores (s : State) (off : Nat) : Host.Outcome State Fault Refusal :=
  .next { answered s with rp := { (answered s).rp with ignored := satAdd s.rp.ignored 1, lastKind := 1, lastOffset := BitVec.ofNat 25 off } }

/-- The cords that wait in the inbox or are on the way over the rings. -/
def cordsUnderWay (s : State) : List Cord :=
  (s.inbox ++ s.fabric.items.map (fun it => it.item)).filterMap (fun a => match a.body with
    | .cord c => some c
    | _ => none)

end Sys2Proof.Machine
end

