-- ==== Sys2Proof/Certificates/Slice0/Obligations.lean ====
section
/-! DEFINITION. Obligations.lean: what the provers are asked to prove of the model, by part of the block. -/

open Sys2Proof Sys2Proof.Machine

/-! ### The queue of commands, idle time, reset -/

/-- A step takes the command at the front of the queue and runs it with the rest of the queue. -/
def Obligations.StepRunsTheFrontCommand : Prop :=
  ∀ (c : Instr) (rest : List Instr) (s : State), s.pending = c :: rest → step s = exec c { s with pending := rest }

/-- With no command waiting a step is one edge of EMBER_CLK (log 5, the model's choice): the block goes on, queue and integration parameters stay;
with RST_N low or TEST_MODE high nothing changes but RP_ACK, which ends (R299, R430, R459); else the tick moves on by the rate word and, with the
rate within the servo's 200 ppm and short of its end, does not fall and advances at most two counts (R274). -/
def Obligations.IdleStepIsOneEmberEdge : Prop :=
  ∀ s : State, s.pending = [] →
    (∃ t, step s = .next t ∧ t.pending = [] ∧ t.params = s.params ∧
      (portLive s = true → -200000 ≤ s.time.ratePpb → s.time.ratePpb ≤ 200000 → s.time.tick.toNat + 2 < 2 ^ 64 →
        s.time.tick.toNat ≤ t.time.tick.toNat ∧ t.time.tick.toNat ≤ s.time.tick.toNat + 2)) ∧
    (portLive s = false → step s = .next { s with rp := { s.rp with ack := false } })

/-- What reset leaves (R299, R303, R449): kindling COLD with no image, step IDLE, time FREE, tick 0, D0, D62 and D63 WARM and every
other domain OFF, no fault pending, an empty log whose zero fill runs, and no command waiting. This state is safe. -/
def Obligations.ResetLeavesTheSpecsValues : Prop :=
  State.reset.kindle.state = .cold ∧ State.reset.image = none ∧ State.reset.step.state = .idle ∧ State.reset.time.state = .free ∧
  State.reset.time.tick = 0 ∧ (∀ d, domSt State.reset d = if d = 0 ∨ d = 62 ∨ d = 63 then .warm else .off) ∧
  State.reset.faults.pending = 0 ∧ State.reset.faults.dieFailed = false ∧ State.reset.log.entries = [] ∧ State.reset.log.writeSeq = 0 ∧
  State.reset.log.filling = true ∧ State.reset.kindle.instanceId = 0xFFFFFF ∧ State.reset.kindle.anchorLocked = false ∧
  State.reset.power.coolIdle = 0x07D0 ∧ State.reset.power.openLead = 0x0C80 ∧ State.reset.faults.recoveryLimit = 0x003C ∧
  State.reset.log.threshold = 0x6000 ∧ State.reset.log.fwdTarget = 0xFFFFFF ∧ State.reset.kiln.unitWorking = 0xFF ∧
  State.reset.kiln.bankWorking = 0xFF ∧ State.reset.pending = [] ∧ State.reset.Safe

/-- From every safe state a step goes on, to a safe state with the same integration parameters: no well-formed command, and no idle
edge, ever stops the block, in whatever state it meets it; and with commands waiting exactly the front one is used up. -/
def Obligations.SafeStatesNeverStop : Prop :=
  ∀ s : State, s.Safe → ∃ t, step s = .next t ∧ t.Safe ∧ t.params = s.params ∧ t.pending = s.pending.tail

/-- Conversely a step stops only on a flit or an image header that has not 256 bytes, and then with the fault malformedOperand; no step is
ever refused. -/
def Obligations.OnlyMalformedOperandsStop : Prop :=
  ∀ s : State, (∀ r, step s ≠ .refused r) ∧
    (step s = .fault .malformedOperand ↔ ∃ rest, (∃ l chk flit, s.pending = .flitReceive l chk flit :: rest ∧ flit.length ≠ 256) ∨
      (∃ b, s.pending = .imageHeaderRead b :: rest ∧ b.length ≠ 256)) ∧
    ∀ f, step s = .fault f → f = .malformedOperand

/-! ### The register port -/

/-- STEP_NUMBER_WRITE, JOB_SEED_WRITE, MEMBER_WRITE and GROUP_EPOCH_WRITE take effect in IDLE alone, a membership record with STATE 0b11
aside; elsewhere they are ignored and counted (R174, R444), and with D63, which holds the two tables, not WARM the tables' writes are
cold accesses (R339, R428). A die whose host has announced the end of a recovery may release its hold by such a write (R383, R396), which
leaves the written registers as the write made them. -/
def Obligations.HostSetsTheStepAndItsGroupsInIdle : Prop :=
  (∀ (s : State) (v : Word), portLive s = true →
    (s.step.state = .idle →
      (∃ t, exec (.stepNumberWrite v) s = .next t ∧ t.step = { s.step with number := v.extractLsb' 16 48 } ∧ t.rp = (answered s).rp ∧
        (s.faults.hold = none → t = { answered s with step := t.step })) ∧
      (∃ t, exec (.jobSeedWrite false v) s = .next t ∧ t.step = { s.step with seedLo := v } ∧ t.rp = (answered s).rp ∧
        (s.faults.hold = none → t = { answered s with step := t.step })) ∧
      (∃ t, exec (.jobSeedWrite true v) s = .next t ∧ t.step = { s.step with seedHi := v } ∧ t.rp = (answered s).rp ∧
        (s.faults.hold = none → t = { answered s with step := t.step }))) ∧
    (s.step.state ≠ .idle →
      exec (.stepNumberWrite v) s = ignores s 0x4010 ∧ exec (.jobSeedWrite false v) s = ignores s 0x4018 ∧
      exec (.jobSeedWrite true v) s = ignores s 0x4020)) ∧
  (∀ (s : State) (v : Word) (x : BitVec 16) (g : BitVec 8), portLive s = true →
    (warm s 63 = false → ∃ t u, exec (.memberWrite x v) s = .next t ∧ exec (.groupEpochWrite g v) s = .next u ∧
      t = { s with rp := t.rp } ∧ u = { s with rp := u.rp } ∧ t.rp.cold = satAdd s.rp.cold 1 ∧ u.rp.cold = satAdd s.rp.cold 1) ∧
    (warm s 63 = true → s.step.state = .idle →
      (v.extractLsb' 62 2 ≠ 3 → ∃ t, exec (.memberWrite x v) s = .next t ∧
        (memberWord t x.toNat).extractLsb' 62 2 = v.extractLsb' 62 2 ∧ (memberWord t x.toNat).extractLsb' 38 24 = v.extractLsb' 38 24 ∧
        (memberWord t x.toNat).extractLsb' 0 38 = 0 ∧ (∀ y, y ≠ x.toNat → memberWord t y = memberWord s y) ∧
        (s.faults.hold = none → t = { answered s with tables := { s.tables with members := t.tables.members } })) ∧
      (∃ t, exec (.groupEpochWrite g v) s = .next t ∧ epochOf t g.toNat = (v.extractLsb' 48 16).toNat ∧
        (∀ y, y ≠ g.toNat → epochOf t y = epochOf s y) ∧
        (s.faults.hold = none →
          t = { answered s with tables := { s.tables with epochs := t.tables.epochs }, faults := { s.faults with epochBad := false } }))) ∧
    (warm s 63 = true → s.step.state ≠ .idle ∨ v.extractLsb' 62 2 = 3 → exec (.memberWrite x v) s = ignores s (0x1000000 + 8 * x.toNat)) ∧
    (warm s 63 = true → s.step.state ≠ .idle → exec (.groupEpochWrite g v) s = ignores s (0x1080000 + 8 * g.toNat)))

/-- STOP_REQ makes a stop pending in every state of the step (R180), and nothing else; a write of 0 does nothing. A write of 1 clears each W1C
bit of KX_SEAL_STATUS and KX_FAULT_PENDING and a write of 0 leaves it (R8); nothing else changes. -/
def Obligations.StopIsRememberedAndOnesClear : Prop :=
  (∀ (s : State) (v : Word), portLive s = true → exec (.stopReq v) s =
    .next (if v.getLsbD 0 then { answered s with step := { s.step with stopPending := true } } else answered s)) ∧
  (∀ (s : State) (v : Word), portLive s = true →
    (∃ t, exec (.sealStatusW1c v) s = .next t ∧ t = { answered s with step := { s.step with seen := t.step.seen } } ∧
      ∀ k < 3, t.step.seen.getLsbD k = (s.step.seen.getLsbD k && !v.getLsbD k)) ∧
    (∃ t, exec (.faultPendingW1c v) s = .next t ∧ t = { answered s with faults := { s.faults with pending := t.faults.pending } } ∧
      ∀ k < 8, t.faults.pending.getLsbD k = (s.faults.pending.getLsbD k && !v.getLsbD k)))

/-! ### Kindling -/

/-- Before the request (R300, R301): ANCHOR_LOCK locks the anchor; an anchor word is written until then and ignored and counted after;
KX_INSTANCE_ID is written in COLD before the first accepted request, and is ignored and counted elsewhere. -/
def Obligations.TrustAndIdentityBeforeKindling : Prop :=
  ∀ (s : State) (v : Word) (k : Fin 6), portLive s = true →
    (exec (.anchorLock v) s = .next (if v.getLsbD 0 then { answered s with kindle := { s.kindle with anchorLocked := true } } else answered s)) ∧
    (s.kindle.anchorLocked = false → ∃ t, exec (.trustAnchorWrite k v) s = .next t ∧
      t = { answered s with kindle := { s.kindle with anchor := t.kindle.anchor } } ∧ smGet 0 t.kindle.anchor k.val = v ∧
      ∀ j, j ≠ k.val → smGet 0 t.kindle.anchor j = smGet 0 s.kindle.anchor j) ∧
    (s.kindle.anchorLocked = true → exec (.trustAnchorWrite k v) s = ignores s (0x1040 + 8 * k.val)) ∧
    (s.kindle.state = .cold → s.kindle.requested = false →
      exec (.instanceIdWrite v) s = .next { answered s with kindle := { s.kindle with instanceId := v.extractLsb' 40 24 } }) ∧
    (s.kindle.state ≠ .cold ∨ s.kindle.requested = true → exec (.instanceIdWrite v) s = ignores s 0x1010)

/-- The disabled-tile list (R302). A write to KX_DISABLED_TILES is accepted in COLD, in READY with step state IDLE or HALTED, and while
banked, and then changes that register word alone: not the list in force, which KX4 takes from the registers when KINDLE_REQ is accepted. In
every other state, and on a hearth-only block in every state, the write is ignored and counted. -/
def Obligations.DisabledTilesAreTakenAtTheNextKindling : Prop :=
  ∀ (s : State) (v : Word) (d : Fin 9), portLive s = true →
    (s.params.hearthOnly = false →
      (s.kindle.state = .cold ∨ s.power.banked = true ∨ s.kindle.state = .ready ∧ (s.step.state = .idle ∨ s.step.state = .halted)) →
      ∃ t, exec (.disabledTilesWrite d v) s = .next t ∧ t = { answered s with kindle := { s.kindle with disabled := t.kindle.disabled } } ∧
        smGet 0 t.kindle.disabled d.val = v ∧ ∀ j, j ≠ d.val → smGet 0 t.kindle.disabled j = smGet 0 s.kindle.disabled j) ∧
    (s.params.hearthOnly = true ∨ (s.kindle.state ≠ .cold ∧ s.power.banked = false ∧
        ¬(s.kindle.state = .ready ∧ (s.step.state = .idle ∨ s.step.state = .halted))) →
      exec (.disabledTilesWrite d v) s = ignores s (0x1080 + 8 * d.val)) ∧
    (v.getLsbD 0 = true →
      ((s.kindle.state = .cold ∧ s.kindle.anchorLocked = true ∧ s.kindle.instanceId ≠ 0xFFFFFF ∧ s.pins.needRstPulse = false) ∨
        (s.kindle.state = .ready ∧ s.power.banked = false ∧ (s.step.state = .idle ∨ s.step.state = .halted))) →
      ∃ t, exec (.kindleReq v) s = .next t ∧
        ∀ i < 576, t.kindle.disabledTaken.getLsbD i = (smGet 0 s.kindle.disabled (i / 64)).getLsbD (i % 64))

/-- KINDLE_REQ (R300, R332, R333, R336): where a kindling may start, it starts: the image and everything made from it go, the disabled-tile
list is taken, the failure fields clear, KINDLE_COUNT counts, and the domains of stage 1 are asked for. On a banked block in READY the
request is accepted at once, KINDLING with its disabled-tile list, and first wakes the block: the clocking domains are asked for and the image
stays until then. In COLD without a locked anchor or an instance
identifier, or when a pulse of RST_N is owed, and in READY with a step in hand, it is refused and logged; during kindling it is ignored and
counted, with nothing else changed; a write of 0 does nothing. -/
def Obligations.KindleRequestStartsKindling : Prop :=
  (∀ (s : State) (v : Word), portLive s = true → v.getLsbD 0 = true →
    ((s.kindle.state = .cold ∧ s.kindle.anchorLocked = true ∧ s.kindle.instanceId ≠ 0xFFFFFF ∧ s.pins.needRstPulse = false) ∨
      (s.kindle.state = .ready ∧ s.power.banked = false ∧ (s.step.state = .idle ∨ s.step.state = .halted))) →
    ∃ t, exec (.kindleReq v) s = .next t ∧ t.kindle.state = .kindling ∧ (t.kindle.stage = 1 ∨ t.kindle.stage = 2) ∧ t.image = none ∧
      t.leaves = [] ∧ t.inbox = [] ∧ t.tables = State.reset.tables ∧ t.step.state = .idle ∧ t.step.number = 0 ∧ t.kindle.requested = true ∧
      t.kindle.failCode = 0 ∧ t.kindle.failSection = 0 ∧ t.kindle.failIndex = 0 ∧
      (∀ i < 576, t.kindle.disabledTaken.getLsbD i = (smGet 0 s.kindle.disabled (i / 64)).getLsbD (i % 64)) ∧
      t.kindle.count = satAdd s.kindle.count 1 ∧ t.kindle.anchor = s.kindle.anchor ∧ t.kindle.instanceId = s.kindle.instanceId ∧
      t.power.banked = false ∧ ∀ d ∈ stage1Doms, implemented s d = true → asked t d) ∧
  (∀ (s : State) (v : Word), portLive s = true → v.getLsbD 0 = true → s.kindle.state = .ready → s.power.banked = true →
    ∃ t, exec (.kindleReq v) s = .next t ∧ t.kindle = { s.kindle with
        state := .kindling, stage := 0, afterWake := true, requested := true, disabledTaken := t.kindle.disabledTaken } ∧
      (∀ i < 576, t.kindle.disabledTaken.getLsbD i = (smGet 0 s.kindle.disabled (i / 64)).getLsbD (i % 64)) ∧ t.image = s.image ∧
          t.power.waking = true ∧ t.step = s.step ∧ t.rp = (answered s).rp ∧
      (s.power.waking = false → asked t 60 ∧ asked t 61)) ∧
  (∀ (s : State) (v : Word), portLive s = true → v.getLsbD 0 = true → s.kindle.state = .cold →
    s.kindle.anchorLocked = false ∨ s.kindle.instanceId = 0xFFFFFF ∨ s.pins.needRstPulse = true → ∃ t, exec (.kindleReq v) s = .next t ∧
      t.kindle = s.kindle ∧ t.rp.ignored = satAdd s.rp.ignored 1 ∧ logged s t 0x0106 0x54 0x1008 0 ∧
      t = { s with rp := t.rp, log := t.log, time := { s.time with exceptionsNow := t.time.exceptionsNow }, free := t.free }) ∧
  (∀ (s : State) (v : Word), portLive s = true → v.getLsbD 0 = true → s.kindle.state = .ready → s.power.banked = false →
    s.step.state ≠ .idle → s.step.state ≠ .halted → ∃ t, exec (.kindleReq v) s = .next t ∧ t.kindle = s.kindle ∧ t.image = s.image ∧
      logged s t 0x0106 0x54 0x1008 (stepCode s) ∧
      t.step = s.step ∧ t = { s with rp := (answered s).rp, log := t.log, time := { s.time with exceptionsNow := t.time.exceptionsNow },
                                     free := t.free }) ∧
  (∀ (s : State) (v : Word), portLive s = true → v.getLsbD 0 = true →
    (s.kindle.state = .kindling ∨ s.kindle.state = .kindled ∨ s.kindle.state = .locked) → exec (.kindleReq v) s = ignores s 0x1008) ∧
  (∀ (s : State) (v : Word), portLive s = true → v.getLsbD 0 = false → exec (.kindleReq v) s = .next (answered s))

/-- Stages 2 to 4 (R305, R306, R322, R335). The SFDP read chooses a read mode, or fails with 2 for no signature and with 3 for no usable
mode or an image beyond 16 MiB without 4-byte addresses; the header passes its checks and stage 3 begins, or kindling fails with the check's
code; the image's bytes come in whole and stage 4 begins; the authentication passes and stage 5 begins, or kindling fails with its code and
section. Outside its stage, kindling in another one too, each of the four changes nothing. The failure of a device without a usable mode (log 68)
and the stop on a header read of another length than 256 bytes, malformedOperand (log 53), are the model's choice. -/
def Obligations.ImageIsReadAndAuthenticated : Prop :=
  (∀ (s : State) (d : Sfdp), s.kindle.state = .kindling → s.kindle.stage = 2 → s.kindle.discovered = false →
    ∃ t, exec (.nvmDiscover d) s = .next t ∧
      if d.signature = false then t.kindle.state = .cold ∧ t.kindle.failCode = 2 ∧ t.image = none
      else match readMode d s.kindle.nvmCtrl with
        | none => t.kindle.state = .cold ∧ t.kindle.failCode = 3 ∧ t.image = none
        | some m =>
          if 16777216 < s.kindle.imageBase.toNat + 256 ∧ d.addr4Table = false then
            t.kindle.state = .cold ∧ t.kindle.failCode = 3 ∧ t.image = none
          else t.kindle.discovered = true ∧ t.kindle.stage = 2 ∧ t.kindle.nvmInfo.extractLsb' 62 2 = BitVec.ofNat 2 m ∧
            t.kindle.addr4Ok = d.addr4Table ∧ t = { s with kindle := t.kindle }) ∧
  (∀ (s : State) (b : List Byte), s.kindle.state = .kindling → s.kindle.stage = 2 → s.kindle.discovered = true → b.length = 256 →
    ∃ t, exec (.imageHeaderRead b) s = .next t ∧
      match checkHeader b (me s) s.params.hearthOnly with
        | some f => t.kindle.state = .cold ∧ t.kindle.failCode = BitVec.ofNat 8 f.code ∧ t.image = none
        | none => if s.kindle.imageBase.toNat + imgBytes b ≤ 16777216 ∨ s.kindle.addr4Ok = true then
              t.kindle.stage = 3 ∧ t.kindle.header = b ∧ t = { s with kindle := t.kindle }
            else t.kindle.state = .cold ∧ t.kindle.failCode = 3 ∧ t.image = none) ∧
  (∀ (s : State) (b : List Byte), b.length ≠ 256 → exec (.imageHeaderRead b) s = .fault .malformedOperand) ∧
  (∀ (s : State) (b : List Byte) (us : BitVec 32), s.kindle.state = .kindling → s.kindle.stage = 3 → b.length = imgBytes s.kindle.header →
    ∃ t, exec (.imageReadDone b us) s = .next t ∧ t.kindle.stage = 4 ∧ t.kindle.imageBytes = b ∧ t.kindle.nvmInfo.extractLsb' 0 32 = us ∧
      t = { s with kindle := t.kindle }) ∧
  (∀ s : State, s.kindle.state = .kindling → s.kindle.stage = 4 → ∃ t, exec .authenticate s = .next t ∧
    match firstFail [checkDirectory s.kindle.imageBytes, checkAuth s.kindle.imageBytes (anchorBytes s)] with
      | none => t = { s with kindle := { s.kindle with stage := 5 } }
      | some f => t.kindle.state = .cold ∧ t.kindle.failCode = BitVec.ofNat 8 f.code ∧ t.kindle.failSection = BitVec.ofNat 4 f.sec ∧
          t.image = none) ∧
  (∀ (s : State) (d : Sfdp) (b : List Byte) (us : BitVec 32),
    (¬(s.kindle.state = .kindling ∧ s.kindle.stage = 2 ∧ s.kindle.discovered = false) → exec (.nvmDiscover d) s = .next s) ∧
    (¬(s.kindle.state = .kindling ∧ s.kindle.stage = 2 ∧ s.kindle.discovered = true) → b.length = 256 →
      exec (.imageHeaderRead b) s = .next s) ∧
    (¬(s.kindle.state = .kindling ∧ s.kindle.stage = 3 ∧ b.length = imgBytes s.kindle.header) → exec (.imageReadDone b us) s = .next s) ∧
    (¬(s.kindle.state = .kindling ∧ s.kindle.stage = 4) → exec .authenticate s = .next s))

/-- Stages 5 to 10 (R323, R324, R327, R329). A section with a bad CRC, or one whose ECC words cannot be corrected, is read again once and the
second time fails kindling with STORE and its number; contents that fail a check fail kindling with the check's code and section; contents
that pass are loaded whole, with the working tiles that remain as logical tiles; a tree that fails a check fails kindling, one that passes
makes the instance KINDLED; a self-test that leaves four units, four banks and every segment makes it READY and IDLE, any other fails
kindling with TEST. -/
def Obligations.ImageIsLoadedAndTheInstanceReady : Prop :=
  (∀ (s : State) (word : Fin 10), s.kindle.state = .kindling → s.kindle.stage = 5 → ∃ t, exec (.checkAndLoad word) s = .next t ∧
    match badSection s.kindle.imageBytes word.val with
      | some k =>
        if s.kindle.reread = true then t.kindle.state = .cold ∧ t.kindle.failCode = 9 ∧ t.kindle.failSection = BitVec.ofNat 4 k ∧ t.image = none
        else t = { s with kindle := { s.kindle with stage := 3, reread := true, imageBytes := [] } }
      | none => match checkContents s.kindle.imageBytes (me s) with
        | some f => t.kindle.state = .cold ∧ t.kindle.failCode = BitVec.ofNat 8 f.code ∧ t.kindle.failSection = BitVec.ofNat 4 f.sec ∧
            t.image = none
        | none => t.kindle.stage = 7 ∧ t.kindle.state = .kindling ∧ t.image = some (parseImage s.kindle.imageBytes) ∧
            t.kiln.groups = (parseImage s.kindle.imageBytes).groups ∧ t.kiln.places = (parseImage s.kindle.imageBytes).places ∧
            ((parseImage s.kindle.imageBytes).hearthOnly = false → t.kindle.logical = logicalTiles s.kindle.disabledTaken
              (spareTiles s.kindle.disabledTaken (parseImage s.kindle.imageBytes).policies.spareCounts))) ∧
  (∀ (s : State) (im : Image), s.image = some im → s.kindle.state = .kindling → s.kindle.stage = 7 →
    (List.range 24).all (settled s) = true → ∃ t, exec .treeBuild s = .next t ∧
      match treeChecks s im with
        | some f => t.kindle.state = .cold ∧ t.kindle.failCode = BitVec.ofNat 8 f.code ∧ t.image = none
        | none => (t.kindle.state = .kindled ∨ t.kindle.state = .locked) ∧ t.image = some im ∧ t.kiln = s.kiln ∧ t.tables = s.tables) ∧
  (∀ (s : State) (r : SelfTest), s.kindle.state = .locked → ∃ t, exec (.kilnInitSelfTest r) s = .next t ∧
    if popcount8 (s.kiln.unitWorking &&& ~~~r.failedUnits) < 4 ∨ popcount8 (s.kiln.bankWorking &&& ~~~r.badBanks) < 4 ∨
        (s.params.hearthOnly = false ∧ r.failedSegments ≠ 0) then t.kindle.state = .cold ∧ t.kindle.failCode = 0x0D ∧ t.image = none
    else t.kindle.state = .ready ∧ t.kindle.stage = 0 ∧ t.step.state = .idle ∧ t.image = s.image ∧
      t.kiln.unitWorking = s.kiln.unitWorking &&& ~~~r.failedUnits ∧ t.kiln.bankWorking = s.kiln.bankWorking &&& ~~~r.badBanks)

/-- KINDLE_STAGE_TIMEOUT and what every failed kindling leaves (R304, R335, R336): COLD, no image, every implemented domain of D1 to D61
OFF with its request lowered, or on its way there where its grant has not come yet, and the fault line raised. In stage 7 the links that
have not settled are given up, and with none left the tree's own bound is what failed. The codes are the model's choice (log 40). With no
stage running that has a bound, nothing happens. -/
def Obligations.StageTimeoutFailsKindling : Prop :=
  ∀ s : State,
    ((s.kindle.state = .kindling ∧ 1 ≤ s.kindle.stage ∧ s.kindle.stage ≤ 5) ∨ s.kindle.state = .locked ∨
        (s.kindle.state = .kindling ∧ s.kindle.stage = 7 ∧ (List.range 24).all (settled s) = true) →
      ∃ t, exec .kindleStageTimeout s = .next t ∧ t.kindle.state = .cold ∧ t.kindle.stage = 0 ∧ t.image = none ∧ t.kindle.failCode ≠ 0 ∧
        t.faults.pending.getLsbD 7 = true ∧ t.kindle.anchor = s.kindle.anchor ∧ t.kindle.instanceId = s.kindle.instanceId ∧
        ∀ d ∈ blockDoms, implemented s d = true → ((dom t d).st = .off ∧ (dom t d).req = false) ∨
          ((dom s d).st = .waking ∧ (dom s d).gnt = false ∧ (dom t d).leave = some true)) ∧
    (s.kindle.state = .kindling → s.kindle.stage = 7 → (List.range 24).all (settled s) = false →
      ∃ t, exec .kindleStageTimeout s = .next t ∧ t.kindle.state = .kindling ∧ t.image = s.image ∧
        ∀ k < 24, (linkAt s k).state = .training ∨ (linkAt s k).state = .retraining → (linkAt t k).state = .failed) ∧
    (s.kindle.state = .cold ∨ s.kindle.state = .ready ∨ s.kindle.state = .kindled → exec .kindleStageTimeout s = .next s)

/-! ### Power -/

/-- PD_GNT_RISE and PD_GNT_FALL (R341, R357, R448): a grant that answers a request makes the domain WARM, a clocking domain but for its
PLL; no other domain changes. A domain that was to leave while its grant was awaited leaves with it, and one whose half's clock does not run
is banked and waits for the clock (log 86). A grant that nothing asked for does nothing. D62 powered again starts an empty log with its zero
fill (R410). The fall after a lowered request ends the exit; a domain wanted meanwhile is asked for again, unless it is held BANKED (R350). -/
def Obligations.GrantsMoveADomain : Prop :=
  (∀ (s : State) (d : Fin 64), implemented s d.val = true → (dom s d.val).gnt = false →
    ((dom s d.val).req = true → (dom s d.val).leave = none → (∀ c, clockDom d.val = some c → warm s c = true) →
      ∃ t, exec (.pdGntRise d) s = .next t ∧ (∀ e, e ≠ d.val → dom t e = dom s e) ∧
        (if d.val = 60 ∨ d.val = 61 then t = { s with power := t.power } ∧ dom t d.val = { dom s d.val with gnt := true, ret := false }
         else dom t d.val = { dom s d.val with gnt := true, ret := false, st := .warm }) ∧
        (d.val = 62 → t.log.entries = [] ∧ t.log.writeSeq = 0 ∧ t.log.filling = true)) ∧
    (∀ off : Bool, (dom s d.val).req = true → (dom s d.val).leave = some off → ∃ t, exec (.pdGntRise d) s = .next t ∧
      dom t d.val = { dom s d.val with gnt := true, req := false, ret := !off, wanted := false, leave := none,
                                       st := if off then .off else .banked } ∧ ∀ e, e ≠ d.val → dom t e = dom s e) ∧
    (∀ c, (dom s d.val).req = true → (dom s d.val).leave = none → clockDom d.val = some c → warm s c = false →
      ∃ t, exec (.pdGntRise d) s = .next t ∧ t = { s with power := t.power } ∧
        dom t d.val = { dom s d.val with gnt := true, req := false, ret := true, wanted := true, st := .banked } ∧
        ∀ e, e ≠ d.val → dom t e = dom s e) ∧
    ((dom s d.val).req = false → exec (.pdGntRise d) s = .next s)) ∧
  (∀ (s : State) (d : Fin 64), (dom s d.val).gnt = true → (dom s d.val).req = false →
    ∃ t, exec (.pdGntFall d) s = .next t ∧ t = { s with power := t.power } ∧ (dom t d.val).gnt = false ∧
      ((dom s d.val).wanted = false → dom t d.val = { dom s d.val with gnt := false, wanted := false } ∧
        ∀ e, e ≠ d.val → dom t e = dom s e) ∧
      ((dom s d.val).wanted = true → implemented s d.val = true → heldBanked s d.val = false → asked t d.val)) ∧
  (∀ (s : State) (d : Fin 64), (dom s d.val).gnt = false → exec (.pdGntFall d) s = .next s)

/-- POWER_FAULT (R343): a grant that falls while its request is high turns the domain OFF, or BANKED where a kiln unit or a bank retires with it,
logs the fault with the domain, sets OTHER_SEEN, makes a running step unclean, and costs its units: D0, a segment domain, D57 to D61 and D63 the
die, a kiln unit its place in service, a bank its place and every buffer in it, a port or module its link, D62 the log. What the fault leaves of
the domain is the model's choice (log 24). -/
def Obligations.PowerFaultCostsTheUnits : Prop :=
  ∀ (s : State) (d : Fin 64), implemented s d.val = true → (dom s d.val).gnt = true → (dom s d.val).req = true →
    ∃ t, exec (.powerFault d) s = .next t ∧ (dom t d.val).gnt = false ∧ t.faults.pending.getLsbD 7 = true ∧
      domSt t d.val = (if 17 ≤ d.val ∧ d.val ≤ 32 then .banked else .off) ∧ (d.val ≠ 62 → logged s t 0x0901 0x53 d.val 0) ∧
      ((dom t d.val).req = true ↔ d.val = 0 ∨ d.val = 62 ∨ d.val = 63) ∧
      (running s = true → t.step.unclean &&& uPowerFault = uPowerFault) ∧
      (d.val ≤ 16 ∨ (57 ≤ d.val ∧ d.val ≤ 61) ∨ d.val = 63 →
        t.faults.dieFailed = true ∧ (s.faults.dieFailed = false → t.step.state = .halted)) ∧
      (17 ≤ d.val ∧ d.val ≤ 24 → t.kiln.unitWorking = s.kiln.unitWorking &&& ~~~(BitVec.ofNat 8 (2 ^ (d.val - 17)))) ∧
      (25 ≤ d.val ∧ d.val ≤ 32 → t.kiln.bankWorking.getLsbD (d.val - 25) = false ∧ ∀ p ∈ t.kiln.used, p.1 / 384 ≠ d.val - 25) ∧
      (33 ≤ d.val ∧ d.val ≤ 56 → (linkAt t (d.val - 33)).state = .failed) ∧
      (d.val = 62 → t.log.disabled = true ∧ t.log.queue = [] ∧ t.log.entries = [] ∧ t.log.writeSeq = 0)

/-- GRANT_LATE and GRANT_ABSENT (R342, R336): a request that waits more than 200 ember cycles is counted once; one still absent after 1 ms
is logged as event 0x0902 with its domain and goes on waiting, but while kindling goes on it fails with POWER and the domain. -/
def Obligations.LateGrantsAreCountedAndLogged : Prop :=
  ∀ (s : State) (d : Fin 64), (dom s d.val).req = true → (dom s d.val).gnt = false →
    (∀ n : Nat, 200 < n → (dom s d.val).lateCounted = false → ∃ t, exec (.grantLate d n) s = .next t ∧
      t = { s with power := { s.power with grantLate := satAdd s.power.grantLate 1, doms := t.power.doms } } ∧
      dom t d.val = { dom s d.val with lateCounted := true } ∧ ∀ e, e ≠ d.val → dom t e = dom s e) ∧
    (∀ n : Nat, n ≤ 200 ∨ (dom s d.val).lateCounted = true → exec (.grantLate d n) s = .next s) ∧
    (s.kindle.state = .cold ∨ s.kindle.state = .ready → exec (.grantAbsent d) s = .next (logEv 0x0902 0x53 d.val 100000 s)) ∧
    (s.kindle.state = .kindling ∨ s.kindle.state = .kindled ∨ s.kindle.state = .locked → ∃ t, exec (.grantAbsent d) s = .next t ∧
      t.kindle.state = .cold ∧ t.kindle.failCode = 1 ∧ t.kindle.failIndex = BitVec.ofNat 16 d.val ∧ t.image = none)

/-- PLL_LOCK makes a granted clocking domain that waits for it WARM and takes in force a code recorded while the PLL was stopped, counted and
acknowledged (R356); its loss is a power fault that fails the die (R448). A throttle code of a running PLL takes effect at once, is
acknowledged and counted (R355); of a stopped one it is recorded alone. The west half refuses codes 4 to 7, the east half 5 to 7 and a stop
while an east link is UP, acknowledging with the step in force. A stop waits for the east-bound beats on the rings, and then stops the east
clock and closes the seam; the seam reopens once the east clock runs (R271). -/
def Obligations.ClocksLockAndThrottle : Prop :=
  (∀ s : State,
    ((dom s 60).gnt = true → domSt s 60 = .waking → ∃ t, exec (.pllLock .west) s = .next t ∧ warm t 60 = true ∧ t.power.pllW = true ∧
      (∀ c, s.power.codeW = some c → c.toNat ≤ 3 → t.power.stepW = c.setWidth 2 ∧ t.power.codeW = none ∧ t.pins.thrAckW = (!s.pins.thrAckW) ∧
        t.power.throttleChanges = satAdd s.power.throttleChanges 1)) ∧
    ((dom s 61).gnt = true → domSt s 61 = .waking → ∃ t, exec (.pllLock .east) s = .next t ∧ warm t 61 = true ∧ t.power.pllE = true ∧
      (∀ c, s.power.codeE = some c → t.power.codeE = none ∧
        (c.toNat ≤ 3 → t.power.stepE = c.setWidth 2 ∧ t.power.eastStopped = false ∧ clockRuns t true = true ∧
          t.pins.thrAckE = (!s.pins.thrAckE) ∧ t.power.throttleChanges = satAdd s.power.throttleChanges 1) ∧
        (c = 4 → eastLinkUp s = true → t.power.eastStopped = s.power.eastStopped ∧ t.power.stepE = s.power.stepE ∧
          t.pins.thrAckE = (!s.pins.thrAckE)) ∧
        (c = 4 → eastLinkUp s = false → eastBound s = false → t.power.eastStopped = true ∧ clockRuns t true = false ∧
          t.pins.thrAckE = (!s.pins.thrAckE) ∧ t.power.throttleChanges = satAdd s.power.throttleChanges 1))) ∧
    (warm s 60 = true → ∃ t, exec (.pllLockLost .west) s = .next t ∧ warm t 60 = false ∧ t.power.pllW = false ∧
      t.faults.pending.getLsbD 7 = true ∧ t.faults.dieFailed = true ∧ ∀ d ∈ blockDoms, clockDom d = some 60 → warm t d = false) ∧
    (warm s 61 = true → ∃ t, exec (.pllLockLost .east) s = .next t ∧ warm t 61 = false ∧ t.power.pllE = false ∧
      t.faults.pending.getLsbD 7 = true ∧ t.faults.dieFailed = true ∧ ∀ d ∈ blockDoms, clockDom d = some 61 → warm t d = false)) ∧
  (∀ (s : State) (c : BitVec 3),
    (c.toNat ≤ 3 → s.power.pllW = true → ∃ t, exec (.throttleChange .west c) s = .next t ∧ t.power.stepW = c.setWidth 2 ∧
      t.pins.thrAckW = (!s.pins.thrAckW) ∧ t.pins.thrAckE = s.pins.thrAckE ∧
      t.power.throttleChanges = satAdd s.power.throttleChanges 1 ∧ t.power.stepE = s.power.stepE ∧
      t = { s with power := t.power, pins := t.pins, log := t.log, free := t.free,
                   time := { s.time with exceptionsNow := t.time.exceptionsNow } }) ∧
    (c.toNat ≤ 3 → s.power.pllW = false →
      exec (.throttleChange .west c) s = .next { s with power := { s.power with codeW := some c } }) ∧
    (c.toNat ≤ 3 → s.power.pllE = true → ∃ t, exec (.throttleChange .east c) s = .next t ∧ t.power.stepE = c.setWidth 2 ∧
      t.pins.thrAckE = (!s.pins.thrAckE) ∧ t.pins.thrAckW = s.pins.thrAckW ∧ t.power.stepW = s.power.stepW ∧
      t.power.eastStopped = false ∧ t.power.throttleChanges = satAdd s.power.throttleChanges 1) ∧
    (c.toNat ≤ 4 → s.power.pllE = false →
      exec (.throttleChange .east c) s = .next { s with power := { s.power with codeE := some c } }) ∧
    (4 ≤ c.toNat → ∃ t, exec (.throttleChange .west c) s = .next t ∧ t.power = s.power ∧ t.pins.thrAckW = (!s.pins.thrAckW) ∧
      t.pins.thrAckE = s.pins.thrAckE) ∧
    (5 ≤ c.toNat ∨ (c.toNat = 4 ∧ s.power.pllE = true ∧ eastLinkUp s = true) → ∃ t, exec (.throttleChange .east c) s = .next t ∧
      t.power = s.power ∧ t.pins.thrAckE = (!s.pins.thrAckE) ∧ t.pins.thrAckW = s.pins.thrAckW) ∧
    (s.power.pllE = true → eastLinkUp s = false → eastBound s = false → ∃ t, exec (.throttleChange .east 4) s = .next t ∧
      t.power.eastStopped = true ∧ t.power.eastClosed = true ∧ clockRuns t true = false ∧ t.pins.thrAckE = (!s.pins.thrAckE)) ∧
    (s.power.pllE = true → eastLinkUp s = false → eastBound s = true →
      exec (.throttleChange .east 4) s = .next { s with power := { s.power with eastStopWaits := true } }) ∧
    (s.power.eastClosed = true → clockRuns s true = true →
      exec .seamReopen s = .next { s with power := { s.power with eastClosed := false, eastWanted := false } }) ∧
    (s.power.eastClosed = false ∨ clockRuns s true = false → exec .seamReopen s = .next s))

/-- The requests of KX_POWER_CTRL (R351, R353, R354, R357). Its three rows are one register: whichever names the write, its effect is the
same. BANK_REQ and WAKE_REQ together are ignored and counted. BANK_REQ in READY and IDLE or HALTED banks every WARM domain of D1 to D61 and
rests the links, at once where the rings are empty and else when they have emptied; before READY and in a step it waits, with a gap bank in
ARMED far before its launch; while banked it is ignored and counted. WAKE_REQ of a banked block asks for both clocking domains; elsewhere it
is ignored and counted. EMBER_REQ in READY and IDLE or HALTED, or while banked, turns every domain of the block OFF, one that waits for a
grant once it has come, and leaves it COLD without its image; elsewhere it is refused and changes no part but the log. A write of none of
the three only sets COOL_IDLE and OPEN_LEAD. -/
def Obligations.HostMovesTheBlockBetweenPowerStates : Prop :=
  ∀ (s : State) (v : Word), portLive s = true →
    let b := v.getLsbD 63
    let w := v.getLsbD 62
    let e := v.getLsbD 61
    let p := { s.power with coolIdle := v.extractLsb' 32 16, openLead := v.extractLsb' 16 16 }
    let rests := s.kindle.state = .ready ∧ (s.step.state = .idle ∨ s.step.state = .halted)
    (exec (.wakeReq v) s = exec (.bankReq v) s ∧ exec (.emberReq v) s = exec (.bankReq v) s) ∧
    (b = true → w = true → exec (.bankReq v) s = ignores s 0x3008) ∧
    (b = false → w = false → e = false → exec (.bankReq v) s = .next { answered s with power := p }) ∧
    (b = true → w = false → e = false → s.power.bankDrains = false →
      (rests → s.power.banked = false → ringsEmpty s = true → ∃ t, exec (.bankReq v) s = .next t ∧
        t.power.banked = true ∧ t.power.bankPending = false ∧ t.power.coolIdle = v.extractLsb' 32 16 ∧ t.power.openLead = v.extractLsb' 16 16 ∧
        (∀ d ∈ blockDoms, domSt s d = .warm → domSt t d = .banked ∧ (dom t d).req = false ∧ (dom t d).ret = true) ∧
        (∀ k < 24, linkUp s k = true → (linkAt t k).state = .down) ∧ t.image = s.image ∧ t.step = s.step ∧ t.tables = s.tables ∧
        t.kiln = s.kiln ∧ t.leaves = s.leaves) ∧
      (rests → s.power.banked = false → ringsEmpty s = false → ∃ t, exec (.bankReq v) s = .next t ∧ t.power.bankDrains = true ∧
        t.power.bankPending = true ∧ t.power.banked = false ∧ (∀ d, dom t d = dom s d) ∧ t.fabric = s.fabric ∧ t.image = s.image ∧
        t.step = s.step) ∧
      (¬rests → s.power.banked = false → (s.step.state ≠ .armed ∨ s.time.tick.toNat + (v.extractLsb' 16 16).toNat + 1000 > s.step.launch.toNat) →
        exec (.bankReq v) s = .next { answered s with power := { p with bankPending := true } }) ∧
      (s.power.banked = false → s.step.state = .armed → s.time.tick.toNat + (v.extractLsb' 16 16).toNat + 1000 ≤ s.step.launch.toNat →
        ∃ t, exec (.bankReq v) s = .next t ∧ t.power.bankPending = true ∧ t.power.gapBanked = true ∧ t.power.banked = false ∧
          t.step = s.step ∧ t.image = s.image) ∧
      (s.power.banked = true → ∃ t, exec (.bankReq v) s = .next t ∧ t = { s with power := p, rp := t.rp } ∧
        t.rp.ignored = satAdd s.rp.ignored 1 ∧ t.rp.lastOffset = 0x3008)) ∧
    (w = true → b = false → e = false →
      (s.power.banked = true → s.power.waking = false → ∃ t, exec (.wakeReq v) s = .next t ∧ t.power.waking = true ∧ asked t 60 ∧ asked t 61 ∧
        t = { answered s with power := t.power }) ∧
      (s.power.banked = false ∨ s.power.waking = true → ∃ t, exec (.wakeReq v) s = .next t ∧ t = { s with power := p, rp := t.rp } ∧
        t.rp.ignored = satAdd s.rp.ignored 1 ∧ t.rp.lastOffset = 0x3008)) ∧
    (e = true → b = false → w = false →
      (s.power.banked = true ∨ rests → ∃ t, exec (.emberReq v) s = .next t ∧ t.kindle.state = .cold ∧ t.image = none ∧ t.power.banked = false ∧
        t.tables = State.reset.tables ∧ t.leaves = [] ∧ t.inbox = [] ∧ t.kindle.anchor = s.kindle.anchor ∧
        t.kindle.instanceId = s.kindle.instanceId ∧ t.kindle.disabled = s.kindle.disabled ∧ t.kiln.bankWorking = s.kiln.bankWorking ∧
        t.time.tick = s.time.tick ∧ t.log.entries = s.log.entries ∧
        ∀ d ∈ blockDoms, domSt t d = .off ∨ (domSt s d = .waking ∧ (dom s d).gnt = false ∧ (dom t d).leave = some true)) ∧
      (s.power.banked = false → ¬rests → ∃ t, exec (.emberReq v) s = .next t ∧ t.kindle = s.kindle ∧
        logged s t 0x0106 0x53 0x3008 (stepCode s) ∧
        t = { s with power := p, rp := (answered s).rp, log := t.log, free := t.free,
                     time := { s.time with exceptionsNow := t.time.exceptionsNow } }))

/-- Pre-heat, open lead, demand and cooling (R168, R169, R346, R347, R348). At its tick a pre-heat or the open lead is raised and its
domains are asked for, those held BANKED aside (R350); before it nothing happens. The HOLD of a PREHEAT entry ends once its ticks have passed,
and not before; one of 0 ends with the step. Work for a BANKED unit asks for its domain and is counted, in a running step also as a cold-path
wait; a unit with no work asks for nothing. An idle domain outside the keep-warm set is banked, its request lowered and its retention kept;
one that is busy, pre-heated or kept warm is not, and COOL_IDLE 0 disables cooling. -/
def Obligations.DomainsAreAskedForAndCooled : Prop :=
  (∀ s : State,
    (s.step.state = .armed → s.power.leadRaised = false → s.step.launch.toNat ≤ s.time.tick.toNat + s.power.openLead.toNat →
      ∃ t, exec .openLead s = .next t ∧ t = { s with power := t.power } ∧ t.power.leadRaised = true ∧ t.power.gapBanked = false ∧
        ∀ d ∈ openDoms s, implemented s d = true → heldBanked s d = false → asked t d) ∧
    (s.step.state ≠ .armed ∨ s.power.leadRaised = true ∨ s.time.tick.toNat + s.power.openLead.toNat < s.step.launch.toNat →
      exec .openLead s = .next s)) ∧
  (∀ (s : State) (plan : BitVec 12) (due : Nat × Int) (e : PlanEntry),
    s.power.preheatDue.find? (fun p => p.1 == plan.toNat) = some due → entryAt s plan.toNat = some e →
    (due.2 ≤ (s.time.tick.toNat : Int) → ∃ t, exec (.planPreheat plan) s = .next t ∧ t = { s with power := t.power } ∧
      (∀ p ∈ t.power.preheatDue, p.1 ≠ eIdx e) ∧
      (if eType e = 0 then t.power.preheats = s.power.preheats ++ [(eIdx e, domMask (preheatDoms s e))] ∧
          ∀ d ∈ preheatDoms s e, implemented s d = true → heldBanked s d = false → asked t d
       else (eIdx e, ePreMask e, s.time.tick.toNat) ∈ t.power.holds ∧
          ∀ d ∈ maskDoms (ePreMask e), implemented s d = true → heldBanked s d = false → asked t d)) ∧
    ((s.time.tick.toNat : Int) < due.2 → exec (.planPreheat plan) s = .next s)) ∧
  (∀ (s : State) (plan : BitVec 12) (e : PlanEntry), entryAt s plan.toNat = some e →
    (ePreHold e ≠ 0 → ∃ t, exec (.preheatHoldEnd plan) s = .next t ∧ t = { s with power := { s.power with holds := t.power.holds } } ∧
      ∀ h, h ∈ t.power.holds ↔ (h ∈ s.power.holds ∧ (h.1 ≠ plan.toNat ∨ s.time.tick.toNat < h.2.2 + ePreHold e))) ∧
    (ePreHold e = 0 → exec (.preheatHoldEnd plan) s = .next s)) ∧
  (∀ (s : State) (d : Fin 64),
    (domSt s d.val = .banked → (dom s d.val).wanted = false → heldBanked s d.val = false → busyDom s d.val = true →
      ∃ t, exec (.demandWake d) s = .next t ∧ t = { s with power := t.power } ∧ t.power.demandWakes = satAdd s.power.demandWakes 1 ∧
        t.power.coldPathWaits = (if running s = true then satAdd s.power.coldPathWaits 1 else s.power.coldPathWaits) ∧ asked t d.val) ∧
    (domSt s d.val ≠ .banked ∨ (dom s d.val).wanted = true → exec (.demandWake d) s = .next s) ∧
    (busyDom s d.val = false → d.val ≠ 57 → (d.val < 25 ∨ 32 < d.val) → exec (.demandWake d) s = .next s)) ∧
  (∀ (s : State) (d : Fin 64),
    (s.power.coolIdle ≠ 0 → mayCool s d.val = true → ∃ t, exec (.cool d) s = .next t ∧
      t = { s with power := t.power } ∧ domSt t d.val = .banked ∧ (dom t d.val).req = false ∧ (dom t d.val).ret = true ∧
      (∀ e, e ≠ d.val → dom t e = dom s e) ∧ (d.val = 61 → t.power.eastClosed = true ∧ t.power.pllE = false)) ∧
    (s.power.coolIdle = 0 ∨ warm s d.val = false ∨ preheated s d.val = true ∨ busyDom s d.val = true ∨ keepWarm s d.val = true →
      exec (.cool d) s = .next s))

/-- RST_N and TEST_MODE (R299, R410, R449, R457, R459): low RST_N, or a rise of TEST_MODE, returns the registers to their reset values and drops the
image, and keeps the ash log's entries, its sequence count and (log 49, the model's choice) the tick; the release restarts the tick at 0 and the
port serves again, but with TEST_MODE high it only ends the low; the end of test mode empties the log, gives every wrapper WS_BYPASS (log 84, the
model's choice) and asks for a low pulse of RST_N before a kindling. A pin that does not change does nothing. -/
def Obligations.ResetPinsReturnTheBlockToReset : Prop :=
  ∀ s : State,
    (s.pins.rstN = true → ∃ t, exec .rstNLow s = .next t ∧ t.pins.rstN = false ∧ t.kindle = State.reset.kindle ∧ t.image = none ∧
      t.step = State.reset.step ∧ t.faults = State.reset.faults ∧ t.links = [] ∧ t.leaves = [] ∧ t.inbox = [] ∧ t.tables = State.reset.tables ∧
      t.kiln = State.reset.kiln ∧ t.fabric = State.reset.fabric ∧ t.ctr = [] ∧
      t.log.entries = s.log.entries ∧ t.log.writeSeq = s.log.writeSeq ∧ t.time.tick = s.time.tick ∧ portLive t = false ∧
      ∀ d ∈ blockDoms, (dom t d).st = .off ∧ (dom t d).req = false ∧ (dom t d).gnt = (dom s d).gnt) ∧
    (s.pins.rstN = false → s.pins.testMode = false → ∃ t, exec .rstNHigh s = .next t ∧ t.pins.rstN = true ∧ t.pins.needRstPulse = false ∧
      t.time.tick = 0 ∧ t.time.frac = 0 ∧ portLive t = true ∧
      t = { s with pins := { s.pins with rstN := true, needRstPulse := false }, time := { s.time with tick := 0, frac := 0 },
                   log := t.log, free := t.free }) ∧
    (s.pins.rstN = false → s.pins.testMode = true → exec .rstNHigh s = .next { s with pins := { s.pins with rstN := true } }) ∧
    (s.pins.testMode = false → ∃ t, exec .testModeRise s = .next t ∧ t.pins.testMode = true ∧ t.pins.rstN = s.pins.rstN ∧
      portLive t = false ∧ t.kindle = State.reset.kindle ∧ t.image = none ∧ t.step = State.reset.step ∧ t.faults = State.reset.faults ∧
      t.log.entries = s.log.entries ∧ t.log.writeSeq = s.log.writeSeq) ∧
    (s.pins.testMode = true → ∃ t, exec .testModeFall s = .next t ∧ t.pins.testMode = false ∧ t.pins.needRstPulse = true ∧
      t.pins.wrappers = [] ∧ t.log.entries = [] ∧ t.log.writeSeq = 0 ∧ t.log.filling = true ∧ t.kindle = State.reset.kindle ∧
      t.image = none ∧ t.step = State.reset.step) ∧
    (s.pins.rstN = false → exec .rstNLow s = .next s) ∧ (s.pins.rstN = true → exec .rstNHigh s = .next s) ∧
    (s.pins.testMode = true → exec .testModeRise s = .next s) ∧ (s.pins.testMode = false → exec .testModeFall s = .next s)

/-! ### The register port -/

/-- Accesses that reach no working register (R429, R339, R434): where no register lies the access is a decode error with RP_ERR; where its
domain is not WARM it is a cold access that reads 0; both are counted with their offset, and nothing else changes, whichever row makes the
access. On a hearth-only block an access to a part that it has no units for reads 0 without RP_ERR, and a write there is ignored and counted.
While RST_N is low or TEST_MODE is high no host command changes anything but the answer of the port, which is read data 0 without RP_ERR
(R432, R459). -/
def Obligations.AccessesWithoutARegisterChangeNothing : Prop :=
  (∀ (s : State) (a : BitVec 25) (w : Bool) (v : Word), portLive s = true → a.toNat % 8 = 0 → hearthHole s a.toNat = false →
    (regAt s a.toNat = none →
      let t := { s with rp := { s.rp with
        decodeErr := satAdd s.rp.decodeErr 1, lastKind := 3, lastOffset := a, rdata := 0, err := true, ack := true } }
      exec (.unmappedAccess a w) s = .next t ∧ exec (.registerWrite a v) s = .next t ∧
        (regionShifted s 0 = false → exec (.testRegisterAccess a w v) s = .next (instrumentOnly s t))) ∧
    ((regAt s a.toNat).isSome = true → regWarm s a.toNat = false →
      let t := { s with rp := { s.rp with cold := satAdd s.rp.cold 1, lastKind := 2, lastOffset := a, rdata := 0, err := false, ack := true } }
      exec (.coldAccess a w) s = .next t ∧ exec (.registerWrite a v) s = .next t ∧
        (regionShifted s ((regDomain a.toNat).getD 0) = false → exec (.testRegisterAccess a w v) s = .next (instrumentOnly s t)))) ∧
  (∀ (s : State) (a : BitVec 25) (v : Word), portLive s = true → a.toNat % 8 = 0 → hearthHole s a.toNat = true →
    (regionShifted s ((regDomain a.toNat).getD 0) = false →
      exec (.testRegisterAccess a false v) s = .next (instrumentOnly s (answered s))) ∧ exec (.registerWrite a v) s = ignores s a.toNat) ∧
  (∀ (s : State) (v : Word) (a : BitVec 25) (w hi : Bool) (k6 : Fin 6) (k9 : Fin 9) (k128 : Fin 128) (x : BitVec 16) (g : BitVec 8) (j : Fin 24)
    (r : InjReg) (p : Fin 18) (t : Fin 576) (e : Fin 64), portLive s = false →
    ∀ c ∈ [Instr.kindleReq v, .anchorLock v, .trustAnchorWrite k6 v, .instanceIdWrite v, .disabledTilesWrite k9 v, .stepNumberWrite v,
      .jobSeedWrite hi v, .launchTickWrite v, .launchArm v, .tickSet v, .tickRead, .stopReq v, .bankReq v, .wakeReq v, .emberReq v,
      .recoveryDone v, .spliceReq v, .failDieReq v, .spliceWrite k128 v, .memberWrite x v, .groupEpochWrite g v, .sealStatusW1c v,
      .faultPendingW1c v, .clearCounters v, .logReadSeqWrite v, .freezeArm v, .localArm v, .snapRelease v, .injEnableWrite v, .injArm j v,
      .injDisarm j v, .injectorRegWrite j r v, .rewidenReq p v, .tallyT0Read t w e, .registerWrite a v, .unmappedAccess a w,
      .coldAccess a w],
    exec c s = .next { s with rp := { s.rp with rdata := 0, err := false, ack := true } })

/-- REGISTER_WRITE (R431, R434): at the address of a register whose write has a row of its own it does what that row does, for every such
register, and answers with read data 0 and RP_ERR 0; at KX_FREEZE_TICK, KX_IMAGE_BASE, KX_NVM_CTRL, KX_STANDIN_POOL and KX_PORT_FLOW_SEL,
which have no row, it sets the register's writable bits and nothing else; at every other register, whose bits are all read-only or reserved,
it changes nothing, uncounted. The 1687 instrument does what the register port does for a write and for the two reads that latch something
(R433, R440), sets the plain registers in test mode too, when the port serves nothing (R458), and reads every other register with no effect
but the answer; with RST_N low outside test mode it reads 0 and changes nothing (R461). It does not raise RP_ACK; a register in a region that a
wrapper runs on its cells or scans reads what the model leaves free (R457, log 84). -/
def Obligations.OneRegisterHasOneMeaning : Prop :=
  (∀ (s : State) (v : Word), portLive s = true →
    (∀ p ∈ [((0x208 : BitVec 25), Instr.logReadSeqWrite v), (0x210, .clearCounters v), (0x228, .freezeArm v), (0x228, .localArm v),
        (0x228, .snapRelease v), (0x240, .injEnableWrite v), (0x1008, .kindleReq v), (0x1010, .instanceIdWrite v), (0x1070, .anchorLock v),
        (0x2010, .tickSet v), (0x2030, .launchTickWrite v), (0x2038, .launchArm v), (0x3008, .bankReq v), (0x3008, .wakeReq v),
        (0x3008, .emberReq v), (0x4008, .stopReq v), (0x4010, .stepNumberWrite v), (0x4018, .jobSeedWrite false v),
        (0x4020, .jobSeedWrite true v), (0x4028, .sealStatusW1c v), (0x4108, .faultPendingW1c v), (0x4110, .recoveryDone v),
        (0x4110, .spliceReq v), (0x4110, .failDieReq v)],
      ∃ t u, exec (.registerWrite p.1 v) s = .next t ∧ exec p.2 s = .next u ∧
          t = { u with rp := { u.rp with rdata := 0, err := false, ack := true } }) ∧
    (∀ (k6 : Fin 6) (k9 : Fin 9) (x : BitVec 16) (g : BitVec 8),
      ∀ p ∈ [(0x1040 + 8 * k6.val, Instr.trustAnchorWrite k6 v), (0x1080 + 8 * k9.val, .disabledTilesWrite k9 v),
        (0x1000000 + 8 * x.toNat, .memberWrite x v), (0x1080000 + 8 * g.toNat, .groupEpochWrite g v)],
      ∃ t u, exec (.registerWrite (BitVec.ofNat 25 p.1) v) s = .next t ∧ exec p.2 s = .next u ∧
        t = { u with rp := { u.rp with rdata := 0, err := false, ack := true } }) ∧
    (∀ k : Fin 128, s.params.hearthOnly = false → ∃ t u, exec (.registerWrite (BitVec.ofNat 25 (0x4400 + 8 * k.val)) v) s = .next t ∧
      exec (.spliceWrite k v) s = .next u ∧ t = { u with rp := { u.rp with rdata := 0, err := false, ack := true } }) ∧
    (∀ (j : Fin 24) (r : InjReg), warm s (domLink j.val) = true →
      ∃ t u, exec (.registerWrite (BitVec.ofNat 25 (0x50000 + 0x40 * j.val + (match r with
        | .ctrl => 0
        | .matchReg => 8
        | .param => 0x10
        | .seed => 0x18))) v) s = .next t ∧ exec (.injectorRegWrite j r v) s = .next u ∧
        t = { u with rp := { u.rp with rdata := 0, err := false, ack := true } }) ∧
    (∀ p : Fin 18, warm s (33 + p.val) = true → ∃ t u, exec (.registerWrite (BitVec.ofNat 25 (0x10008 + 0x400 * p.val)) v) s = .next t ∧
      exec (.rewidenReq p v) s = .next u ∧ t = { u with rp := { u.rp with rdata := 0, err := false, ack := true } }) ∧
    exec (.registerWrite 0x220 v) s = .next { answered s with freeze := { s.freeze with tickReg := v } } ∧
    (∃ t, exec (.registerWrite 0x1018 v) s = .next t ∧ t = { answered s with kindle := { s.kindle with imageBase := t.kindle.imageBase } } ∧
      t.kindle.imageBase.extractLsb' 12 20 = v.extractLsb' 12 20 ∧ t.kindle.imageBase.extractLsb' 0 12 = 0) ∧
    (exec (.registerWrite 0x1020 v) s = .next { answered s with kindle := { s.kindle with nvmCtrl := v.extractLsb' 60 4 } }) ∧
    (∀ i : Fin 64, ∃ t, exec (.registerWrite (BitVec.ofNat 25 (0x4200 + 8 * i.val)) v) s = .next t ∧
      t = { answered s with faults := { s.faults with pool := t.faults.pool } } ∧ (smGet poolInit t.faults.pool i.val).extractLsb' 25 39 =
        v.extractLsb' 25 39 ∧ (smGet poolInit t.faults.pool i.val).extractLsb' 0 25 = 0 ∧
      ∀ k, k ≠ i.val → smGet poolInit t.faults.pool k = smGet poolInit s.faults.pool k) ∧
    (∀ p : Fin 18, warm s (33 + p.val) = true → ∃ t, exec (.registerWrite (BitVec.ofNat 25 (0x10010 + 0x400 * p.val)) v) s = .next t ∧
      t = { answered s with links := t.links } ∧ linkAt t p.val = { linkAt s p.val with flowSel := v.extractLsb' 0 7 } ∧
      ∀ k, k ≠ p.val → linkAt t k = linkAt s k) ∧
    (∀ a : BitVec 25, a.toNat % 8 = 0 → hearthHole s a.toNat = false → (regAt s a.toNat).isSome = true → regWarm s a.toNat = true →
      a.toNat ∉ [0x208, 0x210, 0x220, 0x228, 0x240, 0x1008, 0x1010, 0x1018, 0x1020, 0x1070, 0x2010, 0x2030, 0x2038, 0x3008, 0x4008, 0x4010,
        0x4018, 0x4020, 0x4028, 0x4108, 0x4110] →
      ¬(0x1040 ≤ a.toNat ∧ a.toNat < 0x10C8) → ¬(0x4200 ≤ a.toNat ∧ a.toNat < 0x4800) →
      ¬(0x10000 ≤ a.toNat ∧ a.toNat < 0x14800 ∧ (a.toNat % 0x400 = 8 ∨ a.toNat % 0x400 = 0x10)) →
      ¬(0x50000 ≤ a.toNat ∧ a.toNat < 0x50600 ∧ a.toNat % 0x40 < 0x20) → ¬(0x1000000 ≤ a.toNat ∧ a.toNat < 0x1080800) →
      exec (.registerWrite a v) s = .next (answered s))) ∧
  (∀ (s : State) (a : BitVec 25) (v : Word), a.toNat % 8 = 0 →
    (portLive s = true →
      (∃ t, exec (.registerWrite a v) s = .next t ∧ exec (.testRegisterAccess a true v) s = .next (instrumentOnly s t)) ∧
      (regionShifted s 0 = false → ∃ t, exec .tickRead s = .next t ∧
        exec (.testRegisterAccess 0x2000 false v) s = .next (instrumentOnly s t)) ∧
      ∀ (t : Fin 576) (b : Bool) (e : Fin 64), regionShifted s (1 + t.val / 36) = false → ∃ u, exec (.tallyT0Read t b e) s = .next u ∧
        exec (.testRegisterAccess (BitVec.ofNat 25 (0x200000 + 4096 * t.val + (if b then 2048 else 0) + 32 * e.val)) false v) s =
          .next (instrumentOnly s u)) ∧
    (s.pins.testMode = true →
      exec (.testRegisterAccess 0x220 true v) s = .next (instrumentOnly s { answered s with freeze := { s.freeze with tickReg := v } }) ∧
      exec (.testRegisterAccess 0x1020 true v) s =
        .next (instrumentOnly s { answered s with kindle := { s.kindle with nvmCtrl := v.extractLsb' 60 4 } })) ∧
    (s.pins.rstN = false → s.pins.testMode = false →
      ∀ w, exec (.testRegisterAccess a w v) s = .next (instrumentOnly s (answered s))) ∧
    (s.pins.testMode = true ∨ s.pins.rstN = true → regionShifted s ((regDomain a.toNat).getD 0) = false → ∀ x, hearthHole s a.toNat = false →
      regAt s a.toNat = some x → regWarm s a.toNat = true → a ≠ 0x2000 → tallyT0 a.toNat = none →
      exec (.testRegisterAccess a false v) s = .next { s with rp := { s.rp with rdata := x, err := false } }) ∧
    (s.pins.testMode = true ∨ s.pins.rstN = true → regionShifted s ((regDomain a.toNat).getD 0) = true →
      ∃ x, exec (.testRegisterAccess a false v) s = .next { s with rp := { s.rp with rdata := x, err := false } }))

/-- TALLY_T0_READ (R440): the read answers with word T0 of the record and latches T1 to T3 of the same record into the segment's shadow,
so that the four words of one record belong together; no tally and no other segment's shadow changes. With the segment's domain not WARM the
read is a cold access, and on a hearth-only block it reads 0 (R339, R429). -/
def Obligations.TallyReadIsTakenWhole : Prop :=
  ∀ (s : State) (t : Fin 576) (prev : Bool) (e : Fin 64), portLive s = true →
    (s.params.hearthOnly = false → warm s (1 + t.val / 36) = true →
      let slot := if prev then 1 else 0
      let w := tallyOf s t.val slot e.val
      ∃ u, exec (.tallyT0Read t prev e) s = .next u ∧ u.rp.rdata = w.1 ∧ u.rp.err = false ∧
        u = { s with rp := { s.rp with rdata := w.1, err := false, ack := true }, shadows := u.shadows } ∧ readTally u t.val slot e.val 1 = w.2.1 ∧
        readTally u t.val slot e.val 2 = w.2.2.1 ∧ readTally u t.val slot e.val 3 = w.2.2.2 ∧
        ∀ k, k / 36 ≠ t.val / 36 → ∀ a x n, readTally u k a x n = readTally s k a x n) ∧
    (s.params.hearthOnly = false → warm s (1 + t.val / 36) = false → ∃ u, exec (.tallyT0Read t prev e) s = .next u ∧
      u = { s with rp := u.rp } ∧ u.rp.rdata = 0 ∧ u.rp.err = false ∧ u.rp.cold = satAdd s.rp.cold 1) ∧
    (s.params.hearthOnly = true → exec (.tallyT0Read t prev e) s = .next (answered s))

/-! ### Time and launch -/

/-- Host access to time (R292, R298, R433). The launch tick is written at the root placement of SEAL_GROUP in IDLE with no launch pending; the tick
is set only before the first SYS_CONFIRM by the root placement as MASTER, logged as event 0x0201 with the tick before, and the timestamps exchanged
until then are of no more use (log 39, the model's choice); elsewhere both are ignored and counted. A read of KX_TICK answers with the tick and
latches its fraction; the sub-tick phase is 0 and not valid while the west clock is stopped, and valid otherwise. -/
def Obligations.HostReadsAndSetsTheTick : Prop :=
  ∀ (s : State) (v : Word), portLive s = true →
    (isCoordinator s = true → s.step.state = .idle → s.time.launchPending = false →
      exec (.launchTickWrite v) s = .next { answered s with time := { s.time with launchTick := v } }) ∧
    (isCoordinator s = false ∨ s.step.state ≠ .idle ∨ s.time.launchPending = true → exec (.launchTickWrite v) s = ignores s 0x2030) ∧
    (s.time.state = .master → isCoordinator s = true → s.time.confirmedOnce = false →
      ∃ t, exec (.tickSet v) s = .next t ∧ t.time.tick = v ∧ t.time.frac = 0 ∧ t.time.ratePpb = s.time.ratePpb ∧
        (∀ x ∈ t.time.exch, x.sent = [] ∧ x.rcvd = []) ∧ logged s t 0x0201 0x53 (v.toNat / 2 ^ 32) v.toNat ∧
        (s.log.disabled = false → s.log.queue.length < 63 → ∃ e ∈ t.log.queue, e.event = 0x0201 ∧ e.e2 = s.time.tick) ∧
        t = { answered s with time := { s.time with tick := t.time.tick, frac := t.time.frac, exch := t.time.exch }, log := t.log, free := t.free }) ∧
    (s.time.state ≠ .master ∨ isCoordinator s = false ∨ s.time.confirmedOnce = true →
      exec (.tickSet v) s = ignores s 0x2010) ∧
    (∃ t, exec .tickRead s = .next t ∧ t.rp.rdata = s.time.tick ∧ t.rp.err = false ∧ t.time.latchFrac = s.time.frac ∧
      t.time.latchValid = clockRuns s false ∧ (clockRuns s false = false → t.time.latchSub = 0) ∧
      t = { s with rp := { s.rp with rdata := s.time.tick, err := false, ack := true }, free := t.free,
                   time := { s.time with latchFrac := t.time.latchFrac, latchSub := t.time.latchSub, latchValid := t.time.latchValid } })

/-- LAUNCH_ARM (R292, R293): away from the root placement it is ignored and counted; there the lowest-numbered reason that applies refuses
it, is recorded and logged as event 0x0207: 1 not MASTER, 2 no SYS_CONFIRM, 3 not IDLE or not READY (log 79, the
model's choice, for READY), 4 a launch tick nearer than
LAUNCH_LEAD_MIN, 5 a launch pending, 6 the last step number. With none, the launch is pending with the next LAUNCH_GEN, REFUSE_REASON is 0
(log 80, the model's choice) and the step takes its tick. A write of 0 does nothing. -/
def Obligations.LaunchIsArmedOrRefusedWithItsReason : Prop :=
  ∀ (s : State) (v : Word), portLive s = true →
    (v.getLsbD 0 = false → exec (.launchArm v) s = .next (answered s)) ∧
    (v.getLsbD 0 = true → isCoordinator s = false → exec (.launchArm v) s = ignores s 0x2038) ∧
    (v.getLsbD 0 = true → isCoordinator s = true →
      let near := s.time.launchTick.toNat < s.time.tick.toNat + policy s (fun p => p.launchLeadMin) 50000
      let refused := fun r : Nat => exec (.launchArm v) s =
        .next (logEv 0x0207 0x53 r 0 { answered s with time := { s.time with refuse := BitVec.ofNat 4 r } })
      (s.time.state ≠ .master → refused 1) ∧
      (s.time.state = .master → s.time.sysConfirm = false → refused 2) ∧
      (s.time.state = .master → s.time.sysConfirm = true → s.step.state ≠ .idle ∨ isReady s = false → refused 3) ∧
      (s.time.state = .master → s.time.sysConfirm = true → s.step.state = .idle → isReady s = true →
        (near → refused 4) ∧ (¬near → s.time.launchPending = true → refused 5) ∧
        (¬near → s.time.launchPending = false → s.step.number = 0xFFFFFFFFFFFF → refused 6) ∧
        (¬near → s.time.launchPending = false → s.step.number ≠ 0xFFFFFFFFFFFF →
          ∃ t, exec (.launchArm v) s = .next t ∧ t.time.launchPending = true ∧ t.time.refuse = 0 ∧
            t.time.launchGen = s.time.launchGen + 1 ∧ t.time.launchTick = s.time.launchTick ∧ t.step.launch = s.time.launchTick ∧
            t.step.state = .idle ∧ t.step.number = s.step.number)))

/-- The time exchange (R281, R283): an end of a live link puts its next message on the rings toward the link, or, on an Ethernet port,
behind the port's TIMING frames; the far end takes the message from its inbox and remembers SEQ and what the peer said of itself; on a link
that is not live neither keeps anything of it. LOCKED falls to HOLDOVER, which begins now; HOLDOVER whose limit has passed ends FREE, with no
upstream and HOPS 15, and before that goes on; in any other state nothing happens; the tick itself does not move (R288, R289). -/
def Obligations.TimeIsExchangedAndLost : Prop :=
  (∀ (s : State) (l : Link) (f : Fin 64) (tx : Word),
    (timeLive s (linkNo l) f.val = false → exec (.timeExchangeSend l f tx) s = .next s) ∧
    (timeLive s (linkNo l) f.val = true → ∃ t, exec (.timeExchangeSend l f tx) s = .next t ∧
      (exchAt t (linkNo l) f.val).seq = hallNext (exchAt s (linkNo l) f.val).seq ∧ t.time.tick = s.time.tick ∧
      t.time.ratePpb = s.time.ratePpb ∧
      (isEth s (linkNo l) = false → t = { s with time := t.time, fabric := t.fabric, ctr := t.ctr } ∧
        ∃ it ∈ t.fabric.items, it.item.body = .mgmt (mkExchange s (linkNo l) f.val) ∧ it.dests = [stopOf (unitLink (linkNo l))] ∧ it.vc = 4) ∧
      (isEth s (linkNo l) = true → t = { s with time := t.time, links := t.links, ctr := t.ctr } ∧
        (linkAt t (linkNo l)).timingQ = (linkAt s (linkNo l)).timingQ ++ [(f.val, msgBytes (mkExchange s (linkNo l) f.val))] ∧
        ∀ k, k ≠ linkNo l → linkAt t k = linkAt s k))) ∧
  (∀ (s : State) (i : Nat) (rx : Word) (l : Link) (f : Nat) (vc : Nat) (m : Msg),
    s.inbox[i]? = some { src := .link l f, vc := vc, body := .mgmt m } → mType m = 1 →
    (timeLive s (linkNo l) f = false → ∃ t, exec (.timeExchange i rx) s = .next t ∧ exchAt t (linkNo l) f = exchAt s (linkNo l) f ∧
      t.inbox = s.inbox.eraseIdx i ∧ t.time.tick = s.time.tick ∧ t.step = s.step ∧ t.kiln = s.kiln) ∧
    (timeLive s (linkNo l) f = true → m.m1.extractLsb' 32 32 ≠ 0 → ∃ t, exec (.timeExchange i rx) s = .next t ∧
      (exchAt t (linkNo l) f).echoSeq = m.m1.extractLsb' 32 32 ∧ (exchAt t (linkNo l) f).peerM4 = m.m4 ∧ t.image = s.image ∧
      t.leaves = s.leaves ∧ t.step.number = s.step.number)) ∧
  (∀ s : State,
    (s.time.state = .locked → ∃ t, exec .timeLoss s = .next t ∧ t.time.state = .holdover ∧ t.time.holdoverSince = s.time.tick ∧
      t.time.tick = s.time.tick ∧ t = { s with time := t.time, log := t.log, free := t.free }) ∧
    (s.time.state ≠ .locked → exec .timeLoss s = .next s) ∧
    (s.time.state = .holdover →
      s.time.holdoverSince.toNat + 100 * policy s (fun p => p.holdoverUs) 20000 < s.time.tick.toNat →
      ∃ t, exec .holdoverExpiry s = .next t ∧ t.time.state = .free ∧ t.time.hops = 15 ∧
        t.time.upstream = none ∧ t.time.sysLocked = false ∧ t.time.tick = s.time.tick ∧ t = { s with time := t.time, log := t.log, free := t.free }) ∧
    (s.time.state ≠ .holdover ∨ s.time.tick.toNat ≤ s.time.holdoverSince.toNat + 100 * policy s (fun p => p.holdoverUs) 20000 →
      exec .holdoverExpiry s = .next s))

/-! ### The ash log, freezes and injectors -/

/-- The ash log (R411, R413, R414): while it may write, the event at the head of the queue becomes the next entry, or the last entry's REPEAT
counts it; while it is being filled, disabled or stopped for want of room nothing happens. An event that occurs joins the queue among those
of its tick, or with 63 queued is discarded and counted; it changes nothing but the log, the count of exceptions of the attempt (R296) and
the model's count of free values. -/
def Obligations.EventsJoinTheLog : Prop :=
  (∀ s : State,
    (s.log.filling = true ∨ s.log.disabled = true ∨ logStopped s = true ∨ s.log.queue = [] → exec .logWrite s = .next s) ∧
    (∀ (e : LogEvent) (q : List LogEvent), s.log.filling = false → s.log.disabled = false → logStopped s = false → s.log.queue = e :: q →
      (s.log.writeSeq = 0 ∨ coalesces e (logSlot s (lastSlot s)) = false → ∃ t, exec .logWrite s = .next t ∧
        t.log.writeSeq = s.log.writeSeq + 1 ∧ logSlot t (s.log.writeSeq.toNat % 32768) = entryOf e s.log.writeSeq.toNat ∧
        (∀ k, k ≠ s.log.writeSeq.toNat % 32768 → logSlot t k = logSlot s k) ∧ t.step = s.step ∧ t.kiln = s.kiln) ∧
      (s.log.writeSeq ≠ 0 → coalesces e (logSlot s (lastSlot s)) = true → ∃ t, exec .logWrite s = .next t ∧
        t.log.writeSeq = s.log.writeSeq ∧ (logSlot t (lastSlot s)).e0 = (logSlot s (lastSlot s)).e0 ∧
        (logSlot t (lastSlot s)).e1.extractLsb' 40 4 = (logSlot s (lastSlot s)).e1.extractLsb' 40 4 + 1 ∧
        t = { s with log := t.log }))) ∧
  (∀ (s : State) (code unit a b : Nat), s.log.queue.length ≤ 63 →
    let t := logEv code unit a b s
    t.log.queue.length ≤ 63 ∧ t = { s with log := t.log, time := { s.time with exceptionsNow := t.time.exceptionsNow }, free := t.free } ∧
    (s.log.disabled = true → t.log = s.log) ∧
    (s.log.disabled = false → s.log.queue.length = 63 → t.log.queue = s.log.queue ∧ t.log.dropped = satAdd s.log.dropped 1 ∧
      t.log.lostCount = s.log.lostCount + 1) ∧
    (s.log.disabled = false → s.log.queue.length < 63 → t.log.queue.length = s.log.queue.length + 1 ∧
      (∀ e ∈ s.log.queue, e ∈ t.log.queue) ∧ ∃ e ∈ t.log.queue, e.event = BitVec.ofNat 16 code ∧ e.argA = BitVec.ofNat 32 a ∧
        e.argB = BitVec.ofNat 32 b ∧ e.origin = s.kindle.instanceId))

/-- The host's hand on the log (R410, R415, R417, R416): READ_SEQ is written; the fill ends; KX_LOG_CTRL takes its stop mode, forwarding and
threshold, and with CLEAR_COUNTERS every counter of the catalogue but the kept ones, and the port's own counts, clear; a forwarded entry for
this instance joins the event queue with FWD 1 and its origin, where the log works and has room. -/
def Obligations.LogIsReadClearedAndForwarded : Prop :=
  (∀ (s : State) (v : Word), portLive s = true →
    exec (.logReadSeqWrite v) s = .next { answered s with log := { s.log with readSeq := v.extractLsb' 0 48 } } ∧
    (v.getLsbD 19 = false → exec (.clearCounters v) s = .next { answered s with log := { s.log with
      stopMode := v.getLsbD 63, fwdMinSev := v.extractLsb' 60 3, fwdTarget := v.extractLsb' 36 24, threshold := v.extractLsb' 20 16 } }) ∧
    (v.getLsbD 19 = true → ∃ t, exec (.clearCounters v) s = .next t ∧ t.rp.ignored = 0 ∧ t.rp.cold = 0 ∧ t.rp.decodeErr = 0 ∧
      (∀ off, ctrKept off = false → smGet 0 t.ctr off = 0) ∧ (∀ off, ctrKept off = true → smGet 0 t.ctr off = smGet 0 s.ctr off) ∧
      t.log.threshold = v.extractLsb' 20 16 ∧ t.log.stopMode = v.getLsbD 63 ∧ t.log.fwdTarget = v.extractLsb' 36 24 ∧
      t.log.fwdMinSev = v.extractLsb' 60 3 ∧ t.log.entries = s.log.entries ∧ t.step = s.step ∧ t.kiln = s.kiln)) ∧
  (∀ s : State, exec .logFillDone s = .next { s with log := { s.log with filling := false } }) ∧
  (∀ (s : State) (i : Nat) (a : Arrival) (m : Msg), s.inbox[i]? = some a → a.body = .mgmt m → mType m = 7 → mDest m = me s →
    (s.log.disabled = false → s.log.queue.length < 63 → ∃ t, exec (.logForward i) s = .next t ∧
      t = { s with inbox := s.inbox.eraseIdx i, log := { s.log with queue := t.log.queue } } ∧ (∀ e ∈ s.log.queue, e ∈ t.log.queue) ∧
      ∃ e ∈ t.log.queue, e.fwd = true ∧ e.time = m.m1 ∧ e.event = m.m2.extractLsb' 48 16 ∧ e.origin = m.m2.extractLsb' 8 24 ∧ e.e2 = m.m3) ∧
    (s.log.disabled = true → exec (.logForward i) s = .next { s with inbox := s.inbox.eraseIdx i }))

/-- Freezes and captures (R418 to R422, R427). The three rows of KX_FREEZE_CTRL are one register: each write sets the trigger fields, and then ARM,
LOCAL_ARM and SNAP_RELEASE act in this order (logs 26 and 47, the model's choice). ARM is accepted at the master with the next FREEZE_ID, refused
there for the lowest reason that applies, and ignored and counted elsewhere; LOCAL_ARM arms a freeze with FREEZE_ID 0; SNAP_RELEASE ends a held
capture. A flooded FREEZE that is new arms this instance, one known already is used up, and one whose tick has passed is captured late; a request is
armed by a master with no freeze pending. 3,200 ticks before the tick every BANKED domain but those held BANKED is asked for; at the tick the
capture is taken, unless one is held; with no freeze near or due neither does anything. -/
def Obligations.FreezesAreArmedAndCaptured : Prop :=
  (∀ (s : State) (v : Word), portLive s = true →
    let arm : Word := 0x8000000000000000
    let loc : Word := 0x4000000000000000
    let rel : Word := 0x2000000000000000
    (exec (.localArm v) s = exec (.freezeArm v) s ∧ exec (.snapRelease v) s = exec (.freezeArm v) s) ∧
    (∃ t, exec (.freezeArm (v &&& ~~~(loc ||| rel))) s = .next t ∧ ∃ u, exec (.localArm (v &&& ~~~(arm ||| rel))) t = .next u ∧
      exec (.freezeArm v) s = exec (.snapRelease (v &&& ~~~(arm ||| loc))) u) ∧
    (v.extractLsb' 61 3 = 0 → ∃ t, exec (.freezeArm v) s = .next t ∧ t.freeze.trigEn = v.getLsbD 60 ∧ t.freeze.trigSystem = v.getLsbD 59 ∧
      t.freeze.counterBase = v.extractLsb' 56 3 ∧ t.freeze.trigEvent = v.extractLsb' 40 16 ∧
      t.freeze.pendingSys = s.freeze.pendingSys ∧ t.freeze.held = s.freeze.held ∧ t = { answered s with freeze := t.freeze }) ∧
    (v.extractLsb' 61 3 = 4 →
      (isCoordinator s = true → s.time.state = .master → freezePending s = false → s.time.tick.toNat + 10000 ≤ s.freeze.tickReg.toNat →
        ∃ t, exec (.freezeArm v) s = .next t ∧ t.freeze.refuse = 0 ∧ t.freeze.lastId = s.freeze.lastId + 1 ∧
          t.freeze.pendingSys = some { tick := s.freeze.tickReg, id := s.freeze.lastId + 1, source := 0 } ∧
          t.freeze.trigEvent = v.extractLsb' 40 16 ∧ t.step = s.step ∧ t.kiln = s.kiln) ∧
      (isCoordinator s = true →
        let r := if s.time.state ≠ .master then 1 else if freezePending s = true then 2 else 3
        (s.time.state ≠ .master ∨ freezePending s = true ∨ s.freeze.tickReg.toNat < s.time.tick.toNat + 10000) →
        ∃ t, exec (.freezeArm v) s = .next t ∧ t.freeze.refuse = BitVec.ofNat 4 r ∧ t.freeze.pendingSys = s.freeze.pendingSys ∧
          t.freeze.lastId = s.freeze.lastId ∧
          t = { answered s with freeze := t.freeze, log := t.log, free := t.free, time := { s.time with exceptionsNow := t.time.exceptionsNow } }) ∧
      (isCoordinator s = false → ∃ t, exec (.freezeArm v) s = .next t ∧ t.freeze.pendingSys = s.freeze.pendingSys ∧
        t.rp.ignored = satAdd s.rp.ignored 1 ∧ t.rp.lastOffset = 0x228 ∧ t = { s with freeze := t.freeze, rp := t.rp })) ∧
    (v.extractLsb' 61 3 = 2 → ∃ t, exec (.localArm v) s = .next t ∧
      t.freeze.pendingLocal = some { tick := s.freeze.tickReg, id := 0, source := 2 } ∧ t.freeze.pendingSys = s.freeze.pendingSys ∧
      t = { answered s with freeze := t.freeze, log := t.log, free := t.free }) ∧
    (v.extractLsb' 61 3 = 1 → ∃ t, exec (.snapRelease v) s = .next t ∧ t.freeze.held = false ∧ t.freeze.late = false ∧
      t.freeze.freezeId = 0 ∧ t.freeze.source = 0 ∧ t.freeze.captured = s.freeze.captured ∧ t.freeze.pendingSys = s.freeze.pendingSys ∧
      t = { answered s with freeze := t.freeze })) ∧
  (∀ (s : State) (i : Nat) (a : Arrival) (m : Msg), s.inbox[i]? = some a → a.body = .mgmt m → mType m = 6 → mDest m = 0xFFFFFF →
    m.m2.extractLsb' 48 16 ≠ 0 →
    (s.freeze.lastId < m.m2.extractLsb' 48 16 → s.time.tick < m.m1 → ∃ t, exec (.freeze i) s = .next t ∧
      t.freeze.pendingSys = some { tick := m.m1, id := m.m2.extractLsb' 48 16, source := m.m2.extractLsb' 46 2 } ∧
      t.freeze.tickReg = m.m1 ∧ t.inbox = s.inbox.eraseIdx i ∧ t.step = s.step) ∧
    (s.freeze.lastId < m.m2.extractLsb' 48 16 → m.m1 ≤ s.time.tick → s.log.disabled = false → s.freeze.held = false →
      ∃ t, exec (.freeze i) s = .next t ∧ t.freeze.held = true ∧ t.freeze.late = true ∧ t.freeze.freezeId = m.m2.extractLsb' 48 16 ∧
        t.freeze.pendingSys = s.freeze.pendingSys ∧ t.step = s.step) ∧
    (m.m2.extractLsb' 48 16 ≤ s.freeze.lastId → exec (.freeze i) s = .next { s with inbox := s.inbox.eraseIdx i })) ∧
  (∀ (s : State) (i : Nat) (a : Arrival) (m : Msg), s.inbox[i]? = some a → a.body = .mgmt m → mType m = 6 → mDest m = me s →
    m.m2.extractLsb' 48 16 = 0 → s.time.state = .master → s.freeze.pendingSys = none → s.time.tick.toNat + 10000 < 2 ^ 64 →
    ∃ t, exec (.freeze i) s = .next t ∧ t.freeze.pendingSys = some { tick := s.time.tick + 10000, id := s.freeze.lastId + 1, source := 1 } ∧
      t.freeze.lastId = s.freeze.lastId + 1 ∧ t.step = s.step) ∧
  (∀ s : State,
    ((∃ f ∈ armedFreezes s, f.tick.toNat ≤ s.time.tick.toNat + 3200) → ∃ t, exec .freezePrewake s = .next t ∧
      t = { s with power := t.power } ∧ ∀ d ∈ blockDoms, domSt s d = .banked → heldBanked s d = false → asked t d) ∧
    ((∀ f ∈ armedFreezes s, s.time.tick.toNat + 3200 < f.tick.toNat) → exec .freezePrewake s = .next s) ∧
    (dueFreeze s = none → exec .freezeCapture s = .next s)) ∧
  (∀ (s : State) (f : ArmedFreeze), dueFreeze s = some f → s.log.disabled = false →
    (s.freeze.held = false → ∃ t, exec .freezeCapture s = .next t ∧ t.freeze.held = true ∧ t.freeze.late = false ∧ t.freeze.freezeId = f.id ∧
      t.freeze.source = f.source ∧ (s.freeze.pendingSys = some f → t.freeze.pendingSys = none) ∧
      t = { s with freeze := t.freeze, log := t.log, free := t.free, time := { s.time with exceptionsNow := t.time.exceptionsNow } }) ∧
    (s.freeze.held = true → ∃ t, exec .freezeCapture s = .next t ∧ t.freeze.captured = s.freeze.captured ∧
      t.freeze.freezeId = s.freeze.freezeId ∧ t.freeze.held = true ∧ t.step = s.step ∧ t.kiln = s.kiln))

/-- Fault injectors (R423, R424, R425, R427). ENABLE is set and cleared, and its fall ends every HOLD and REORDER; the three rows that write
the control register have one meaning: a disarmed injector takes it, with ARM arms and clears its counts, and one with DISARM or without ARM
stays disarmed; an armed one disarms with DISARM and else ignores and counts the write, as it does one to its match and parameter registers,
while its seed is written in either state (log 26, the model's choice, for the seed and for DISARM beside ARM). A REORDER wait puts its cord back
before the cords of its channel that no flit of has left (log 48, the model's choice); a HOLD ends. -/
def Obligations.InjectorsAreArmedAndReleased : Prop :=
  (∀ (s : State) (v : Word), portLive s = true →
    (v.getLsbD 63 = s.inject.enable → exec (.injEnableWrite v) s = .next (answered s)) ∧
    (v.getLsbD 63 ≠ s.inject.enable → ∃ t, exec (.injEnableWrite v) s = .next t ∧ t.inject.enable = v.getLsbD 63 ∧ t.step = s.step ∧
      (v.getLsbD 63 = true → t.inject.units = s.inject.units) ∧
      (v.getLsbD 63 = false → ∀ j < 24, (injAt t j).holding = false ∧ (injAt t j).reorder = none ∧ (injAt t j).armed = (injAt s j).armed))) ∧
  (∀ (s : State) (v : Word) (j : Fin 24), portLive s = true → warm s (domLink j.val) = true →
    let c := v &&& 0xFE00FFFFFFFFFFFF
    (exec (.injDisarm j v) s = exec (.injArm j v) s ∧ exec (.injectorRegWrite j .ctrl v) s = exec (.injArm j v) s) ∧
    ((injAt s j.val).armed = false → v.getLsbD 56 = true → v.getLsbD 55 = false → ∃ t, exec (.injArm j v) s = .next t ∧
      t = { answered s with inject := t.inject } ∧ injAt t j.val = { injAt s j.val with ctrl := c, armed := true, matched := 0, injected := 0 } ∧
      ∀ k, k ≠ j.val → injAt t k = injAt s k) ∧
    ((injAt s j.val).armed = false → v.getLsbD 56 = false ∨ v.getLsbD 55 = true → ∃ t, exec (.injArm j v) s = .next t ∧
      t = { answered s with inject := t.inject } ∧ injAt t j.val = { injAt s j.val with ctrl := c } ∧ ∀ k, k ≠ j.val → injAt t k = injAt s k) ∧
    ((injAt s j.val).armed = true → v.getLsbD 55 = true → ∃ t, exec (.injDisarm j v) s = .next t ∧
      injAt t j.val = { injAt s j.val with armed := false } ∧ (∀ k, k ≠ j.val → injAt t k = injAt s k) ∧
      t = { answered s with inject := t.inject, log := t.log, free := t.free, time := { s.time with exceptionsNow := t.time.exceptionsNow } }) ∧
    ((injAt s j.val).armed = true → v.getLsbD 55 = false → exec (.injArm j v) s = ignores s (0x50000 + 0x40 * j.val)) ∧
    (∃ t, exec (.injectorRegWrite j .seed v) s = .next t ∧ t = { answered s with inject := t.inject } ∧
      injAt t j.val = { injAt s j.val with seed := v } ∧ ∀ k, k ≠ j.val → injAt t k = injAt s k) ∧
    ((injAt s j.val).armed = false →
      (∃ t, exec (.injectorRegWrite j .matchReg v) s = .next t ∧ t = { answered s with inject := t.inject } ∧
        injAt t j.val = { injAt s j.val with matchReg := v &&& 0xFFFFFFFFF8000000 } ∧ ∀ k, k ≠ j.val → injAt t k = injAt s k) ∧
      (∃ t, exec (.injectorRegWrite j .param v) s = .next t ∧ t = { answered s with inject := t.inject } ∧
        injAt t j.val = { injAt s j.val with param := v &&& 0xFFFFFFFFFE00FFFF } ∧ ∀ k, k ≠ j.val → injAt t k = injAt s k)) ∧
    ((injAt s j.val).armed = true → exec (.injectorRegWrite j .matchReg v) s = ignores s (0x50000 + 0x40 * j.val + 8) ∧
      exec (.injectorRegWrite j .param v) s = ignores s (0x50000 + 0x40 * j.val + 0x10))) ∧
  (∀ (s : State) (j : Fin 24), ((injAt s j.val).reorder = none → exec (.reorderRelease j) s = .next s) ∧
    (∀ w : Wait, (injAt s j.val).reorder = some w → ∃ t, exec (.reorderRelease j) s = .next t ∧
      t = { s with inject := t.inject, links := t.links } ∧ (injAt t j.val).reorder = none ∧
      (isEth s j.val = false → w.vc < (linkAt s j.val).chans.length → ∃ ch, (linkAt t j.val).chans[w.vc]? = some ch ∧
        (ch.queue.filter (fun x => x.sent == 0)).head? =
          some { cord := w.cord, sent := 0, flow := w.flow, again := false, void := false, seen := 1, mark := none })) ∧
    (∃ t, exec (.injectHoldEnd j) s = .next t ∧ t = { s with inject := t.inject } ∧ injAt t j.val = { injAt s j.val with holding := false } ∧
      ∀ k, k ≠ j.val → injAt t k = injAt s k))

/-! ### Links -/

/-- A flit on the wire (R220, R221): for every flit with fields in their ranges, as a transmitter at L2 or L3 builds it without an injected
corruption, the 256 bytes pass FLIT_CRC and spell each field back: channel, CTRL, SOC, EOC, SEQD, SEQ, ACK_SEQ, NAK, the credits and the
body. No field overlaps another, and none is lost. -/
def Obligations.FlitsAreReadAsTheyWereWritten : Prop :=
  ∀ (f : Flit) (ack : Nat) (nak : Bool) (v n : Nat), f.vc < 8 → ack < 4096 → v < 8 → n < 32 → f.body.length ≤ 248 →
    f.flipCord = none → f.flipFlit = none → f.creds = some (v, n) →
    let b := flitBytes false f ack nak
    b.length = 256 ∧ flitOk b = true ∧ fieldOf (wordAt b 0) 61 3 = (if f.ctrl then 0 else f.vc) ∧ bitOf (wordAt b 0) 60 = f.ctrl ∧
    bitOf (wordAt b 0) 59 = f.soc ∧ bitOf (wordAt b 0) 58 = f.eoc ∧ bitOf (wordAt b 0) 57 = f.seqd ∧
    fieldOf (wordAt b 0) 45 12 = f.seq.toNat ∧ fieldOf (wordAt b 0) 33 12 = ack ∧ bitOf (wordAt b 0) 32 = nak ∧
    fieldOf (wordAt b 0) 29 3 = v ∧ fieldOf (wordAt b 0) 24 5 = n ∧ b.drop 8 = f.body ++ zeros (248 - f.body.length)

/-- A corruption of a flit from byte 3 on, behind the CRC field, is always seen (R221, R425): whatever at most three neighbouring bytes from byte 3
on a CORRUPT_FLIT mask flips, the flit fails FLIT_CRC at its receiver, and so is never used. -/
def Obligations.CorruptFlitsAlwaysFailTheirCrc : Prop :=
  ∀ (modul : Bool) (f : Flit) (ack : Nat) (nak : Bool) (o : Nat) (m : BitVec 24), f.body.length ≤ 248 → f.flipCord = none →
    f.flipFlit = some (o, m) → m ≠ 0 → 3 ≤ o → o + maskBytes m ≤ 256 → flitOk (flitBytes modul f ack nak) = false

/-- FLIT_TRANSMIT on a KX4-mode port or a module (R222 to R224, R227, R247, R248, R254 to R257). A grant to a channel from VC0 to VC3 takes
one credit and queues the next flit of the cord at its head, on a protocol 2 port of its halves; with its last flit the cord leaves the
channel and, unless its attempt was abandoned, is kept until it is acknowledged. VC4's turn sends up to three control messages, a drain
marker at the head of its channel among them, or up to three management messages for one credit; where both wait they take it alternately.
With nothing ready the turn ends and a NOP flit is queued if the transmit queue is empty. With 64 flits in the queue nothing is granted; with
512 outstanding a NOP flit leaves at once; during a replay nothing is granted. A link that passes no flits sends nothing. Stated where no
injector acts; a cord in an MX format at the head of a channel of a protocol 2 port leaves it unsent (log 72, the model's choice). -/
def Obligations.ArbiterGrantsOneFlit : Prop :=
  ∀ (s : State) (l : Link), let k := linkNo l; let x := linkAt s k; isEth s k = false →
    (flitsPass s k = false → exec (.flitTransmit l) s = .next s) ∧
    (∀ (v : Fin 4) (q : TxCord) (rest : List TxCord), flitsPass s k = true → s.inject.enable = false → (injAt s k).reorder = none →
      (chanAt x v.val).queue = q :: rest → q.sent = 0 → barred s k q.cord = true →
      ∃ t, exec (.flitTransmit l) s = .next t ∧ (chanAt (linkAt t k) v.val).queue.length ≤ rest.length) ∧
    (flitsPass s k = true → (∀ (v : Fin 4) (q : TxCord), (chanAt x v.val).queue.head? = some q → q.sent = 0 → barred s k q.cord = false) →
      (x.resend ≠ [] ∨ (replayFull s k = false ∧ 64 ≤ x.txq.length) → ∃ t, exec (.flitTransmit l) s = .next t ∧
        t = { s with links := t.links, ctr := t.ctr, free := t.free } ∧ ∀ j, linkAt t j = linkAt s j) ∧
      (x.resend = [] → replayFull s k = true → ∃ t, exec (.flitTransmit l) s = .next t ∧
        t = { s with links := t.links, ctr := t.ctr, free := t.free } ∧ (∀ j, j ≠ k → linkAt t j = linkAt s j) ∧
        (linkAt t k).wire = x.wire ++ [flitBytes false { nopFlit with creds := owedCredits s k } x.ackSeq.toNat x.nak] ∧
        (linkAt t k).nak = false ∧ (linkAt t k).ackDue = 0 ∧ (linkAt t k).replay = x.replay ∧ (linkAt t k).txq = x.txq) ∧
      (x.resend = [] → replayFull s k = false → x.txq.length < 64 →
        (nextGrant (chanReady s k) (weights s) 7 x.turn x.taken = none → ∃ t, exec (.flitTransmit l) s = .next t ∧
          t = { s with links := t.links, ctr := t.ctr, free := t.free } ∧ (∀ j, j ≠ k → linkAt t j = linkAt s j) ∧
          linkAt t k = { x with txq := if x.txq = [] then [nopFlit] else x.txq, turn := (x.turn + 1) % 5, taken := 0 }) ∧
        (s.inject.enable = false →
          (∀ (v n : Nat) (q : TxCord) (rest : List TxCord), v < 4 → (injAt s k).reorder = none →
            nextGrant (chanReady s k) (weights s) 7 x.turn x.taken = some (v, n) → (chanAt x v).queue = q :: rest →
            let f := wireFlit v (wireCords s k v q.cord) q.sent
            ∃ t, exec (.flitTransmit l) s = .next t ∧ t = { s with links := t.links, ctr := t.ctr, free := t.free } ∧
              (∀ j, j ≠ k → linkAt t j = linkAt s j) ∧
              linkAt t k = { x with txq := x.txq ++ [f], turn := v, taken := n, chans := (linkAt t k).chans,
                                    unacked := if f.last ∧ q.void = false then x.unacked ++ [{ vc := v, flow := 0, cord := q.cord }]
                                        else x.unacked } ∧
              (∀ w, chanAt (linkAt t k) w = if w = v then { chanAt x v with
                credits := (chanAt x v).credits - 1, queue := if f.last then rest else { q with sent := q.sent + 1 } :: rest } else chanAt x w)) ∧
          (∀ n, nextGrant (chanReady s k) (weights s) 7 x.turn x.taken = some (4, n) →
            let data := decide (x.state = .up ∧ x.mgmtQ ≠ [] ∧ 0 < (chanAt x 4).credits) && !heldBack s k 4
            let ms := (ctrlReady x).take 3
            (ctrlReady x ≠ [] → data = false ∨ x.vc4Ctrl = false → ∃ t, exec (.flitTransmit l) s = .next t ∧
              t = { s with links := t.links, ctr := t.ctr, free := t.free } ∧ (∀ j, j ≠ k → linkAt t j = linkAt s j) ∧
              linkAt t k = { x with txq := x.txq ++ [ctrlFlit ms], turn := 4, taken := n, vc4Ctrl := data, chans := (linkAt t k).chans,
                                    ctrlQ := ms.foldl (fun q m => q.erase m) x.ctrlQ } ∧
              (∀ w, chanAt (linkAt t k) w = if w < 4 ∧ ((chanAt x w).queue.head?.bind (fun q => q.mark)).any ms.contains then
                { chanAt x w with queue := (chanAt x w).queue.drop 1 } else chanAt x w)) ∧
            (ctrlReady x = [] ∨ (data = true ∧ x.vc4Ctrl = true) → ∃ t, exec (.flitTransmit l) s = .next t ∧
              t = { s with links := t.links, ctr := t.ctr, free := t.free } ∧ (∀ j, j ≠ k → linkAt t j = linkAt s j) ∧
              linkAt t k = { x with txq := x.txq ++ [mgmtFlit (x.mgmtQ.take 3)], turn := 4, taken := n, vc4Ctrl := false,
                                    mgmtQ := x.mgmtQ.drop 3, chans := (linkAt t k).chans } ∧
              (∀ w, chanAt (linkAt t k) w = if w = 4 then { chanAt x 4 with credits := (chanAt x 4).credits - 1 } else chanAt x w))))))

/-- FLIT_RECEIVE (R221, R223, R226 to R229, R232, R233, R254). A flit of the wrong length is no flit; on a link that passes none it is lost. On a
port a flit whose codewords could not be corrected or whose FLIT_CRC fails gives nothing, not even its header; sequenced, it is refused, and so is
one out of order: the first refusal asks for a replay with NAK, at once in a NOP flit where nothing else is about to leave. Otherwise the header's
ACK_SEQ frees the flits that it covers and its credits are added. The expected SEQ is accepted: a control flit's messages arrive, drain markers and
WINDOW messages over the rings, and the flits of a cord are put together. A module's flits have no SEQ: one that fails FLIT_CRC loses the partial
cord of its channel and makes a running step unclean. What arrives of a cord restarts the timers of its wait (R403). -/
def Obligations.FlitsAreTakenInSequence : Prop :=
  (∀ (s : State) (l : Link) (chk : RxCheck) (b : List Byte), b.length ≠ 256 → exec (.flitReceive l chk b) s = .fault .malformedOperand) ∧
  (∀ (s : State) (l : Link) (chk : RxCheck) (b : List Byte), b.length = 256 → flitsPass s (linkNo l) = false →
    exec (.flitReceive l chk b) s = .next s) ∧
  (∀ (s : State) (p : Fin 18) (chk : RxCheck) (b : List Byte), let x := linkAt s p.val; let h := wordAt b 0
    b.length = 256 → flitsPass s p.val = true →
    (fecOk chk = false ∨ flitOk b = false → bitOf h 57 = false → ∃ t, exec (.flitReceive (.port p) chk b) s = .next t ∧ t = { s with ctr := t.ctr }) ∧
    (bitOf h 57 = true → fecOk chk = false ∨ flitOk b = false ∨ fieldOf h 45 12 ≠ (x.ackSeq + 1).toNat →
      ∃ t, exec (.flitReceive (.port p) chk b) s = .next t ∧
        t = { s with links := t.links, ctr := t.ctr, free := t.free, time := { s.time with exceptionsNow := t.time.exceptionsNow } } ∧
        (∀ j, j ≠ p.val → linkAt t j = linkAt s j) ∧ (linkAt t p.val).nakOut = true ∧ (linkAt t p.val).ackSeq = x.ackSeq ∧
        (linkAt t p.val).replay = x.replay ∧ (∀ w, (chanAt (linkAt t p.val) w).credits = (chanAt x w).credits ∧
          (chanAt (linkAt t p.val) w).partialRx = (chanAt x w).partialRx) ∧
        (x.nakOut = false → ((linkAt t p.val).nak = true ∧ (linkAt t p.val).wire = x.wire) ∨
          (linkAt t p.val).wire = x.wire ++ [flitBytes false { nopFlit with creds := owedCredits s p.val } x.ackSeq.toNat true])) ∧
    (fecOk chk = true → flitOk b = true →
      (bitOf h 57 = false → x.replay = [] → ∃ t, exec (.flitReceive (.port p) chk b) s = .next t ∧ t = { s with links := t.links, ctr := t.ctr } ∧
        (∀ j, j ≠ p.val → linkAt t j = linkAt s j) ∧ linkAt t p.val = { x with chans := (linkAt t p.val).chans } ∧
        (∀ w, w < x.chans.length → chanAt (linkAt t p.val) w = { chanAt x w with
          credits := (chanAt x w).credits + (if fieldOf h 29 3 = w ∧ w ≤ 4 then fieldOf h 24 5 else 0) })) ∧
      (∀ i, x.replay.findIdx? (fun f => f.seq.toNat == fieldOf h 33 12) = some i → bitOf h 57 = false → bitOf h 32 = false →
        (∀ f ∈ x.replay, f.last = false) → ∃ t, exec (.flitReceive (.port p) chk b) s = .next t ∧ (linkAt t p.val).replay = x.replay.drop (i + 1) ∧
          (linkAt t p.val).replays = 0 ∧ t = { s with links := t.links, ctr := t.ctr }) ∧
      (bitOf h 57 = true → fieldOf h 45 12 = (x.ackSeq + 1).toNat → x.replay = [] →
        (bitOf h 60 = true → (∀ m ∈ slotsOf (b.drop 8), mType m ∈ [0, 1, 4, 5, 6, 7]) → ∃ t, exec (.flitReceive (.port p) chk b) s = .next t ∧
          (linkAt t p.val).ackSeq = x.ackSeq + 1 ∧ (linkAt t p.val).nakOut = false ∧ t.inbox = s.inbox ++
            ((slotsOf (b.drop 8)).filter (fun m => mType m ≠ 0)).map (fun m => { src := .link (.port p) 0, vc := 4, body := .ctrl m, seq := s.fabric.nextId }) ∧
          t = { s with links := t.links, ctr := t.ctr, free := t.free, inbox := t.inbox,
                       fabric := { s.fabric with nextId := s.fabric.nextId + 1 } }) ∧
        (bitOf h 60 = true → (∀ m ∈ slotsOf (b.drop 8), mType m ≤ 7) → ∃ t, exec (.flitReceive (.port p) chk b) s = .next t ∧
          ∀ m ∈ slotsOf (b.drop 8), mType m = 2 ∨ mType m = 3 → ∃ it ∈ t.fabric.items, it.item.body = .ctrl m ∧
            it.item.src = .link (.port p) 0 ∧ it.dests = [stopOf unitFS]) ∧
        (∀ v : Fin 4, bitOf h 60 = false → fieldOf h 61 3 = v.val → v.val < x.chans.length → bitOf h 58 = false →
          ((chanAt x v.val).partialRx.isSome = !bitOf h 59) → ∃ t, exec (.flitReceive (.port p) chk b) s = .next t ∧
            (linkAt t p.val).ackSeq = x.ackSeq + 1 ∧ (linkAt t p.val).nakOut = false ∧
            (chanAt (linkAt t p.val) v.val).partialRx = some ((chanAt x v.val).partialRx.getD [] ++ b.drop 8) ∧
            t = { s with links := t.links, ctr := t.ctr, free := t.free, faults := (timed s t).faults })))) ∧
  (∀ (s : State) (u : Fin 6) (chk : RxCheck) (b : List Byte), let k := 18 + u.val; let x := linkAt s k; let h := wordAt b 0
    b.length = 256 → flitsPass s k = true →
    (flitOk b = false → ∃ t, exec (.flitReceive (.module u) chk b) s = .next t ∧ (running s = false → t.inbox = s.inbox) ∧
      (fieldOf h 61 3 < x.chans.length → chanAt (linkAt t k) (fieldOf h 61 3) = { chanAt x (fieldOf h 61 3) with partialRx := none }) ∧
      (running s = true → t.step.unclean &&& uLinkIntegrity = uLinkIntegrity)) ∧
    (∀ v : Fin 4, flitOk b = true → bitOf h 60 = false → fieldOf h 61 3 = v.val → v.val < x.chans.length → bitOf h 58 = false →
      ((chanAt x v.val).partialRx.isSome = !bitOf h 59) → ∃ t, exec (.flitReceive (.module u) chk b) s = .next t ∧
        (chanAt (linkAt t k) v.val).partialRx = some ((chanAt x v.val).partialRx.getD [] ++ b.drop 8) ∧
        t = { s with links := t.links, ctr := t.ctr, log := t.log, free := t.free, faults := (timed s t).faults,
                     time := { s.time with exceptionsNow := t.time.exceptionsNow } }))

/-- The timers of a KX4-mode port that is UP (R227, R228, R229). Until the expected SEQ arrives NAK is repeated, and ACK_SEQ of an accepted flit is
shown: at once in a NOP flit where no other flit is about to leave, otherwise in the next flit. 4 µs without progress start a replay of every
outstanding flit; the next after eight in a row makes a fast retrain, and the third of those within 1 s fails a port with no lane to blame. -/
def Obligations.PortTimersRepeatAndReplay : Prop :=
  ∀ (s : State) (p : Fin 18), let x := linkAt s p.val; portUp s p.val = true →
    let idle := decide (x.txq = []) && (nextGrant (chanReady s p.val) (weights s) 7 x.turn x.taken).isNone
    let quiet := decide (x.resend = []) && (replayFull s p.val || idle)
    (x.nakOut = true → ∃ t, exec (.nakRepeat p) s = .next t ∧ t = { s with links := t.links, ctr := t.ctr, free := t.free } ∧
      (∀ j, j ≠ p.val → linkAt t j = linkAt s j) ∧ (linkAt t p.val).nakOut = true ∧
      (quiet = false → linkAt t p.val = { x with nak := true }) ∧
      (quiet = true → (linkAt t p.val).nak = false ∧ (linkAt t p.val).replay = x.replay ∧
        (linkAt t p.val).wire = x.wire ++ [flitBytes false { nopFlit with creds := owedCredits s p.val } x.ackSeq.toNat true])) ∧
    (x.nakOut = false → exec (.nakRepeat p) s = .next s) ∧
    (x.ackDue = 0 ∨ quiet = false → exec (.ackVisibility p) s = .next s) ∧
    (0 < x.ackDue → quiet = true → ∃ t, exec (.ackVisibility p) s = .next t ∧ t = { s with links := t.links, free := t.free } ∧
      (∀ j, j ≠ p.val → linkAt t j = linkAt s j) ∧ (linkAt t p.val).ackDue = 0 ∧ (linkAt t p.val).replay = x.replay ∧
      (linkAt t p.val).wire = x.wire ++ [flitBytes false { nopFlit with creds := owedCredits s p.val } x.ackSeq.toNat x.nak]) ∧
    (x.replay = [] → exec (.ackTimeout p) s = .next s) ∧
    (x.replay ≠ [] →
      (x.replays < 8 → ∃ t, exec (.ackTimeout p) s = .next t ∧ (∀ j, j ≠ p.val → linkAt t j = linkAt s j) ∧
        linkAt t p.val = { x with resend := x.replay, replays := x.replays + 1, replayTicks := (linkAt t p.val).replayTicks } ∧
        t.step = s.step ∧ t.inbox = s.inbox ∧ t.kiln = s.kiln) ∧
      (8 ≤ x.replays → (inWindow s.time.tick.toNat secondTicks x.retrains).length < 2 → ∃ t, exec (.ackTimeout p) s = .next t ∧
        (linkAt t p.val).state = .retraining ∧ (linkAt t p.val).resend = [] ∧ (linkAt t p.val).replay = x.replay ∧
        (linkAt t p.val).replays = 0 ∧ (∀ j, j ≠ p.val → linkAt t j = linkAt s j) ∧ t.step = s.step ∧ t.inbox = s.inbox ∧ t.kiln = s.kiln) ∧
      (8 ≤ x.replays → 2 ≤ (inWindow s.time.tick.toNat secondTicks x.retrains).length → worstLane x = none →
        ∃ t, exec (.ackTimeout p) s = .next t ∧ (linkAt t p.val).state = .failed ∧ (linkAt t p.val).replay = []))

/-- Training that ends (R214, R215, R229 to R232, R254, R334). A KX4-mode port whose lanes of the configured width lock at the rate tried, or
with RATE_FALLBACK at a lower one, sends LINK_ID with its sequence state started; otherwise the next lower rate is tried with RATE_FALLBACK,
and without it, or below the lowest, the port is FAILED. A re-widen resumes at the configured width or keeps the one it had. A fast retrain
with every good lane resumes by go-back-N, and without one of them gives up the lanes that did not lock; one of a port without lanes is a
training. A width change takes effect, and a lane given up
meanwhile asks for the next. A module trained at a rate in range sends LINK_ID, at another it is FAILED. A LINK_ID that matches makes the
link UP with credits for the peer's buffers, another leaves it FAILED, and one that is not awaited is ignored. -/
def Obligations.TrainingEndsInLinkUpOrFailure : Prop :=
  (∀ (s : State) (p : Fin 18) (rate : BitVec 2) (lanes : BitVec 8), let x := linkAt s p.val
    (∀ c, portCfg s p.val = some c → x.state = .training → trained s p.val = false →
      let tried := (x.tryRate.map (fun r => r.toNat)).getD c.rate
      let ok := decide (lanes &&& widthMask c.width = widthMask c.width ∧
        (rate.toNat = tried ∨ (c.fallback = true ∧ c.mode ≠ 3 ∧ rate.toNat < tried)))
      (ok = true → x.rewiden = none → c.mode ≠ 3 → ∃ t, exec (.trainDone p rate lanes) s = .next t ∧
        linkAt t p.val = { x with
          rate := rate, width := BitVec.ofNat 2 c.width, lanesGood := widthMask c.width, laneErr := [], lost := 0,
          tryRate := none, ctrlQ := [mkLinkId s p.val], nextSeq := 0, ackSeq := 4095, replay := [], resend := [], txq := [], nak := false,
          nakOut := false, ackDue := 0, replays := 0, group := [], groupNo := 0 } ∧ (∀ j, j ≠ p.val → linkAt t j = linkAt s j) ∧
        t.step = s.step ∧ t.inbox = s.inbox ∧ (rate.toNat = c.rate → t = { s with links := t.links })) ∧
      (∀ w g, x.rewiden = some (w, g) → ∃ t, exec (.trainDone p rate lanes) s = .next t ∧ (linkAt t p.val).state = .up ∧
        (linkAt t p.val).rewiden = none ∧ (linkAt t p.val).resend = x.replay ∧ (linkAt t p.val).replays = 0 ∧
        (linkAt t p.val).width = (if ok = true then BitVec.ofNat 2 c.width else w) ∧
        (linkAt t p.val).lanesGood = (if ok = true then widthMask c.width else g) ∧ t.step = s.step ∧ t.inbox = s.inbox) ∧
      (ok = false → x.rewiden = none → c.fallback = true → c.mode ≠ 3 → 0 < tried → ∃ t, exec (.trainDone p rate lanes) s = .next t ∧
        t = { s with links := t.links } ∧ linkAt t p.val = { x with tryRate := some (BitVec.ofNat 2 (tried - 1)) } ∧
        ∀ j, j ≠ p.val → linkAt t j = linkAt s j) ∧
      (ok = false → x.rewiden = none → c.fallback = false ∨ c.mode = 3 ∨ tried = 0 → ∃ t, exec (.trainDone p rate lanes) s = .next t ∧
        (linkAt t p.val).state = .failed)) ∧
    (x.state = .retraining →
      (x.lanesGood = 0 → exec (.trainDone p rate lanes) s =
        exec (.trainDone p rate lanes) (setLink p.val (fun y => { y with state := .training }) s)) ∧
      (x.lanesGood ≠ 0 → lanes &&& x.lanesGood = x.lanesGood → ∃ t, exec (.trainDone p rate lanes) s = .next t ∧
        t = { s with links := t.links } ∧ linkAt t p.val = { x with state := .up, resend := x.replay, replays := 0, group := [] } ∧
        ∀ j, j ≠ p.val → linkAt t j = linkAt s j) ∧
      (x.lanesGood ≠ 0 → lanes &&& x.lanesGood ≠ x.lanesGood →
        let good := x.lanesGood &&& ~~~(x.lost ||| (x.lanesGood &&& ~~~lanes))
        (isEth s p.val = true ∨ (x.degrade = none ∧ narrower x.width.toNat good = none) → ∃ t, exec (.trainDone p rate lanes) s = .next t ∧
          (linkAt t p.val).state = .failed) ∧
        (∀ w m, isEth s p.val = false → x.degrade = none → narrower x.width.toNat good = some (w, m) →
          ∃ t, exec (.trainDone p rate lanes) s = .next t ∧ (linkAt t p.val).state = .up ∧ (linkAt t p.val).resend = x.replay ∧
            (linkAt t p.val).degrade = some (BitVec.ofNat 8 w, m) ∧ mkDegrade 4 w m ∈ (linkAt t p.val).ctrlQ ∧ t = { s with links := t.links }))) ∧
    (∀ w m, x.state = .degrading → x.degrade = some (w, m) →
      (m &&& x.lost = 0 → ∃ t, exec (.trainDone p rate lanes) s = .next t ∧ linkAt t p.val = { x with
        state := .up, width := w.setWidth 2, lanesGood := m, degrade := none, laneErr := [], resend := x.replay, replays := 0, group := [] } ∧
        (∀ j, j ≠ p.val → linkAt t j = linkAt s j) ∧ t.step = s.step ∧ t.inbox = s.inbox) ∧
      (∀ w2 m2, m &&& x.lost ≠ 0 → narrower (w.toNat % 4) (m &&& ~~~x.lost) = some (w2, m2) → isEth s p.val = false →
        ∃ t, exec (.trainDone p rate lanes) s = .next t ∧ (linkAt t p.val).state = .up ∧ (linkAt t p.val).lanesGood = m ∧
          (linkAt t p.val).degrade = some (BitVec.ofNat 8 w2, m2) ∧ mkDegrade 4 w2 m2 ∈ (linkAt t p.val).ctrlQ))) ∧
  (∀ (s : State) (u : Fin 6) (c : ModCfg) (version : Bool) (r : BitVec 6), modCfg s u.val = some c → (linkAt s (18 + u.val)).state = .training →
    trained s (18 + u.val) = false →
    (r ≠ 0 → c.minRate ≤ r.toNat → r.toNat ≤ (if c.ucie2 then 32 else 16) → (version = true → c.ucie2 = true) →
      ∃ t, exec (.moduleTrainingDone u version r) s = .next t ∧ (linkAt t (18 + u.val)).state = .training ∧
        (linkAt t (18 + u.val)).rateGts = r ∧ (linkAt t (18 + u.val)).version = version ∧
        (linkAt t (18 + u.val)).ctrlQ = [mkLinkId s (18 + u.val)] ∧ t = { s with links := t.links } ∧
        ∀ j, j ≠ 18 + u.val → linkAt t j = linkAt s j) ∧
    (r = 0 ∨ r.toNat < c.minRate ∨ (if c.ucie2 then 32 else 16) < r.toNat ∨ (version = true ∧ c.ucie2 = false) →
      ∃ t, exec (.moduleTrainingDone u version r) s = .next t ∧ (linkAt t (18 + u.val)).state = .failed)) ∧
  (∀ (s : State) (i : Nat) (l : Link) (f vc : Nat) (m : Msg), s.inbox[i]? = some { src := .link l f, vc := vc, body := .ctrl m } →
    let x := linkAt s (linkNo l); mType m = 1 →
    (trained s (linkNo l) = false → exec (.linkId i) s = .next { s with inbox := s.inbox.eraseIdx i }) ∧
    (trained s (linkNo l) = true →
      expectedId s (linkNo l) = some (fieldOf m.m0 32 24, fieldOf m.m0 24 8, fieldOf m.m0 16 8, fieldOf m.m0 8 8) →
      fieldOf m.m1 32 32 = fieldOf (planWord s 3) 32 32 → ∃ t, exec (.linkId i) s = .next t ∧
        linkAt t (linkNo l) = { x with state := .up, peerInst := m.m0.extractLsb' 32 24, peerPort := BitVec.ofNat 8 (fieldOf m.m0 24 7),
                                       chans := (linkAt t (linkNo l)).chans } ∧
        (∀ v, v < x.chans.length → chanAt (linkAt t (linkNo l)) v =
          { chanAt x v with credits := 8 * (x.depths[v]?).getD 0, rxHeld := 0, partialRx := none }) ∧
        (∀ j, j ≠ linkNo l → linkAt t j = linkAt s j) ∧ t = { s with links := t.links, inbox := s.inbox.eraseIdx i }) ∧
    (trained s (linkNo l) = true →
      expectedId s (linkNo l) ≠ some (fieldOf m.m0 32 24, fieldOf m.m0 24 8, fieldOf m.m0 16 8, fieldOf m.m0 8 8) ∨
        fieldOf m.m1 32 32 ≠ fieldOf (planWord s 3) 32 32 → ∃ t, exec (.linkId i) s = .next t ∧ (linkAt t (linkNo l)).state = .failed))

/-- Bounds of training (R214, R215, R229, R231, R325, R326, R352, R353). A link not trained in time, or trained with no LINK_ID, is FAILED, but
a port with RATE_FALLBACK tries a lower rate first; a re-widen that fails keeps the width it had. A fast retrain that fails gives up the lane
that its symbol errors single out, else the port fails; so does a width change that does not end. A link whose peer shows no signal fails, and
a hall flow not established goes down. A signal seen is remembered, and a link that rests DOWN in a block READY and awake trains again. A
signal lost leaves the link DOWN in IDLE, in HALTED or while banked, and otherwise fails it. -/
def Obligations.TrainingBoundsFailTheLink : Prop :=
  (∀ (s : State) (l : Link), let k := linkNo l; let x := linkAt s k
    (x.state ≠ .training → exec (.trainingTimeout l) s = .next s) ∧
    (x.state = .training → x.rewiden = none →
      (∀ c, k < 18 → trained s k = false → portCfg s k = some c → c.fallback = true → c.mode ≠ 3 →
        0 < (x.tryRate.map (fun r => r.toNat)).getD c.rate → ∃ t, exec (.trainingTimeout l) s = .next t ∧ t = { s with links := t.links } ∧
          linkAt t k = { x with tryRate := some (BitVec.ofNat 2 ((x.tryRate.map (fun r => r.toNat)).getD c.rate - 1)) } ∧
          ∀ j, j ≠ k → linkAt t j = linkAt s j) ∧
      (18 ≤ k ∨ trained s k = true ∨ (∀ c, portCfg s k = some c → c.fallback = false ∨ c.mode = 3 ∨
          (x.tryRate.map (fun r => r.toNat)).getD c.rate = 0) → ∃ t, exec (.trainingTimeout l) s = .next t ∧
        (linkAt t k).state = .failed ∧ (linkAt t k).replay = [])) ∧
    (∀ w g, x.state = .training → x.rewiden = some (w, g) → ∃ t, exec (.trainingTimeout l) s = .next t ∧ t = { s with links := t.links } ∧
      linkAt t k = { x with state := .up, width := w, lanesGood := g, rewiden := none, resend := x.replay, replays := 0, group := [] } ∧
      ∀ j, j ≠ k → linkAt t j = linkAt s j) ∧
    (x.state = .training ∨ x.state = .retraining → linkNo l ∉ s.kindle.peerSeen → trained s k = false →
      ∃ t, exec (.peerWaitExpiry l) s = .next t ∧ (linkAt t k).state = .failed) ∧
    (x.state = .training ∨ x.state = .retraining → linkNo l ∈ s.kindle.peerSeen ∨ trained s k = true → exec (.peerWaitExpiry l) s = .next s) ∧
    (∀ f, isEth s k = true → x.state = .up → (flowAt s k f).state = 1 → ∃ t, exec (.peerWaitExpiry l) s = .next t ∧ (flowAt t k f).state = 3) ∧
    (∃ t, exec (.peerSignalSeen l) s = .next t ∧ k ∈ t.kindle.peerSeen ∧ (∀ j ∈ s.kindle.peerSeen, j ∈ t.kindle.peerSeen) ∧
      t = { s with kindle := { s.kindle with peerSeen := t.kindle.peerSeen }, links := t.links } ∧
      (∀ j, j ≠ k → linkAt t j = linkAt s j) ∧
      (x.state ≠ .down ∨ isReady s = false ∨ s.power.banked = true → linkAt t k = x) ∧
      (∀ c, x.state = .down → isReady s = true → s.power.banked = false → portCfg s k = some c → k < 18 → c.mode ≠ 0 →
        linkAt t k = { x with state := if isEth s k then .training else .retraining }) ∧
      (∀ c, x.state = .down → isReady s = true → s.power.banked = false → 18 ≤ k → modCfg s (k - 18) = some c → c.enabled = true →
        linkAt t k = { x with state := .training, rateGts := 0 })) ∧
    (linkUp s k = false → exec (.peerSignalLoss l) s = .next s) ∧
    (linkUp s k = true → s.step.state = .idle ∨ s.step.state = .halted ∨ isBanked s = true → ∃ t, exec (.peerSignalLoss l) s = .next t ∧
      linkAt t k = { x with state := .down } ∧ t = { s with links := t.links } ∧ ∀ j, j ≠ k → linkAt t j = linkAt s j) ∧
    (linkUp s k = true → s.step.state ≠ .idle → s.step.state ≠ .halted → isBanked s = false → ∃ t, exec (.peerSignalLoss l) s = .next t ∧
      (linkAt t k).state = .failed)) ∧
  (∀ (s : State) (p : Fin 18), let x := linkAt s p.val
    (x.state ≠ .retraining → x.state ≠ .degrading → exec (.retrainTimeout p) s = .next s) ∧
    (x.state = .degrading ∨ (x.state = .retraining ∧ (x.lanesGood = 0 ∨ worstLane x = none)) →
      ∃ t, exec (.retrainTimeout p) s = .next t ∧ (linkAt t p.val).state = .failed) ∧
    (∀ i w m, x.state = .retraining → worstLane x = some i → isEth s p.val = false → x.degrade = none →
      narrower x.width.toNat (x.lanesGood &&& ~~~(x.lost ||| BitVec.ofNat 8 (2 ^ i))) = some (w, m) →
      ∃ t, exec (.retrainTimeout p) s = .next t ∧ (linkAt t p.val).state = .up ∧ (linkAt t p.val).resend = x.replay ∧
        (linkAt t p.val).degrade = some (BitVec.ofNat 8 w, m) ∧ mkDegrade 4 w m ∈ (linkAt t p.val).ctrlQ ∧ t = { s with links := t.links }))

/-- Lanes and modules (R230, R231, R233, R256, R401, R453, R461). A lane in use that exceeds its error ratio or loses lock is given up: while a
whole narrower group remains the port asks the peer for that width, a step narrower where the width already asked for includes the lane; with none
the port fails, and an Ethernet port with any lane. Lost during a fast retrain the lane is given up with the retrain at its end. Symbol errors count
by lane in a second, and one past the limit gives the lane up. A width asked for is acknowledged ahead of other control messages, but where both
ends ask the request of the lower instance stands; the acknowledgement of the width asked for begins the change. REWIDEN_REQ begins a full retrain
of a degraded port at a step boundary, and is otherwise ignored and counted. A module whose adapter goes down rests DOWN in IDLE, in HALTED or while
banked; otherwise it is FAILED, and a running step is unclean. -/
def Obligations.LanesAreGivenUpAndRegained : Prop :=
  (∀ (s : State) (lane : Fin 144), let k := lane.val / 8; let x := linkAt s k; let lost := x.lost ||| BitVec.ofNat 8 (2 ^ (lane.val % 8))
    (laneActive s k (lane.val % 8) = false →
      exec (.laneSerExceeded lane) s = .next s ∧ exec (.lossOfLock lane) s = .next s ∧ exec (.serErrPulse lane) s = .next s) ∧
    (laneActive s k (lane.val % 8) = true →
      (x.state ≠ .retraining → exec (.lossOfLock lane) s = exec (.laneSerExceeded lane) s) ∧
      (x.state = .retraining → exec (.lossOfLock lane) s =
        exec (.laneSerExceeded lane) (setLink k (fun y => { y with state := .up, replays := 0, resend := y.replay }) s)) ∧
      (isEth s k = true → ∃ t, exec (.laneSerExceeded lane) s = .next t ∧ (linkAt t k).state = .failed) ∧
      (isEth s k = false →
        (∀ w m, x.state ≠ .degrading → x.degrade = none → narrower x.width.toNat (x.lanesGood &&& ~~~lost) = some (w, m) →
          ∃ t, exec (.laneSerExceeded lane) s = .next t ∧ t = { s with links := t.links } ∧ (∀ j, j ≠ k → linkAt t j = linkAt s j) ∧
            linkAt t k = { x with lost := lost, degrade := some (BitVec.ofNat 8 w, m),
                                  ctrlQ := x.ctrlQ.filter (fun y => mType y != 4) ++ [mkDegrade 4 w m] }) ∧
        (∀ w0 m0 w m, x.state ≠ .degrading → x.degrade = some (w0, m0) → m0 &&& lost ≠ 0 →
          narrower w0.toNat (x.lanesGood &&& ~~~lost) = some (w, m) → ∃ t, exec (.laneSerExceeded lane) s = .next t ∧
            t = { s with links := t.links } ∧ (∀ j, j ≠ k → linkAt t j = linkAt s j) ∧
            linkAt t k = { x with lost := lost, degrade := some (BitVec.ofNat 8 w, m),
                                  ctrlQ := x.ctrlQ.filter (fun y => mType y != 4) ++ [mkDegrade 4 w m] }) ∧
        (x.state = .degrading ∨ (∃ d, x.degrade = some d ∧ d.2 &&& lost = 0) → ∃ t, exec (.laneSerExceeded lane) s = .next t ∧
          t = { s with links := t.links } ∧ linkAt t k = { x with lost := lost } ∧ ∀ j, j ≠ k → linkAt t j = linkAt s j) ∧
        (x.state ≠ .degrading → x.degrade = none → narrower x.width.toNat (x.lanesGood &&& ~~~lost) = none →
          ∃ t, exec (.laneSerExceeded lane) s = .next t ∧ (linkAt t k).state = .failed)) ∧
      (∃ t, exec (.serErrPulse lane) s = .next t ∧
        let n := smGet 0 (linkAt t k).laneErr (lane.val % 8)
        0 < n ∧ (n = 1 ∨ n = smGet 0 x.laneErr (lane.val % 8) + 1) ∧
        (n = serLimit s k + 1 → (linkAt t k).lost.getLsbD (lane.val % 8) = true ∨ (linkAt t k).state = .failed) ∧
        (n ≠ serLimit s k + 1 → linkAt t k = { x with laneErr := (linkAt t k).laneErr } ∧ (∀ j, j ≠ k → linkAt t j = linkAt s j) ∧
          t.step = s.step ∧ t.inbox = s.inbox ∧ t.kiln = s.kiln)))) ∧
  (∀ (s : State) (i : Nat) (p : Fin 18) (f vc : Nat) (m : Msg), s.inbox[i]? = some { src := .link (.port p) f, vc := vc, body := .ctrl m } →
    let x := linkAt s p.val; portUp s p.val = true →
    (mType m = 4 → x.degrade = none ∨ peerOf s p.val 0 ≤ me s → ∃ t, exec (.degradeReq i) s = .next t ∧
      linkAt t p.val = { x with
        degrade := some (m.m0.extractLsb' 48 8, m.m0.extractLsb' 40 8),
        ctrlQ := mkDegrade 5 (fieldOf m.m0 48 8) (m.m0.extractLsb' 40 8) :: x.ctrlQ.filter (fun y => mType y != 4) } ∧
      (∀ j, j ≠ p.val → linkAt t j = linkAt s j) ∧ t = { s with links := t.links, inbox := s.inbox.eraseIdx i }) ∧
    (mType m = 4 → x.degrade ≠ none → me s < peerOf s p.val 0 → exec (.degradeReq i) s = .next { s with inbox := s.inbox.eraseIdx i }) ∧
    (mType m = 5 → x.degrade = some (m.m0.extractLsb' 48 8, m.m0.extractLsb' 40 8) → ∃ t, exec (.degradeAck i) s = .next t ∧
      linkAt t p.val = { x with state := .degrading, resend := [] } ∧ (∀ j, j ≠ p.val → linkAt t j = linkAt s j) ∧
      t = { s with links := t.links, inbox := s.inbox.eraseIdx i }) ∧
    (mType m = 5 → x.degrade ≠ some (m.m0.extractLsb' 48 8, m.m0.extractLsb' 40 8) →
      exec (.degradeAck i) s = .next { s with inbox := s.inbox.eraseIdx i })) ∧
  (∀ (s : State) (p : Fin 18) (v : Word) (c : PortCfg), let x := linkAt s p.val; portLive s = true → warm s (33 + p.val) = true →
    portCfg s p.val = some c →
    (v.getLsbD 63 = false → exec (.rewidenReq p v) s = .next (answered s)) ∧
    (v.getLsbD 63 = true → x.width.toNat < c.width → portUp s p.val = true → atBoundary s = true → ∃ t, exec (.rewidenReq p v) s = .next t ∧
      t = { answered s with links := t.links } ∧ (∀ j, j ≠ p.val → linkAt t j = linkAt s j) ∧
      linkAt t p.val = { x with state := .training, rewiden := some (x.width, x.lanesGood), resend := [] }) ∧
    (v.getLsbD 63 = true → atBoundary s = false ∨ portUp s p.val = false ∨ c.width ≤ x.width.toNat →
      exec (.rewidenReq p v) s = ignores s (0x10000 + 0x400 * p.val + 8))) ∧
  (∀ (s : State) (u : Fin 6),
    (linkUp s (18 + u.val) = false → exec (.adapterLinkDown u) s = .next s) ∧
    (linkUp s (18 + u.val) = true →
      (s.step.state = .idle ∨ s.step.state = .halted ∨ isBanked s = true → ∃ t, exec (.adapterLinkDown u) s = .next t ∧
        linkAt t (18 + u.val) = { linkAt s (18 + u.val) with state := .down } ∧ (∀ j, j ≠ 18 + u.val → linkAt t j = linkAt s j) ∧
        t = { s with links := t.links, ctr := t.ctr }) ∧
      (s.step.state ≠ .idle → s.step.state ≠ .halted → isBanked s = false → ∃ t, exec (.adapterLinkDown u) s = .next t ∧
        (linkAt t (18 + u.val)).state = .failed ∧ (running s = true → t.step.unclean.getLsbD 5 = true))))

/-- Spares (R244, R251). SPARE_TAKE makes an idle spare take the position that faced the failed port, on Ethernet that of its own port with
the number asked for (log 75, the model's choice): it stands for that port, and answers; a port not yet FAILED is given up with it, its
queues emptied. On Ethernet the answer goes first, to the asking spare, and the takeover follows it. A spare that trains keeps the request
waiting; a port that is no idle spare drops it. SPARE_ACK completes the takeover at the end that asked, where the
cords kept for the failed port are queued again; one that nothing asked for does nothing. -/
def Obligations.SparesTakeOver : Prop :=
  ∀ (s : State) (i : Nat) (k : Fin 18) (f vc : Nat) (m : Msg), s.inbox[i]? = some { src := .link (.port k) f, vc := vc, body := .ctrl m } →
    let x := linkAt s k.val; let q := fieldOf m.m0 48 8; let busy := decide (x.state = .retraining ∨ x.state = .degrading ∨ x.state = .training)
    let ack : Msg := { msgZero with m0 := putField 56 8 7 ||| putField 48 8 q }
    (mType m = 6 →
      (busy = true → exec (.spareTake i) s = .next s) ∧
      (busy = false → x.role ≠ 1 → exec (.spareTake i) s = .next { s with inbox := s.inbox.eraseIdx i }) ∧
      (∀ p, busy = false → x.role = 1 → (if isEth s k.val then some q else facing s k.val q) = some p → p ≠ k.val →
        s.fabric.parked = [] →
        ∃ t, exec (.spareTake i) s = .next t ∧ t.inbox = s.inbox.eraseIdx i ∧ t.step = s.step ∧ t.kiln = s.kiln ∧
          (∀ j, j ≠ k.val → j ≠ p → linkAt t j = linkAt s j) ∧
          linkAt t p = (if (linkAt s p).state = .failed then linkAt s p
            else { quietLink (linkAt s p) with state := .failed, failReason := 3 }) ∧
          (isEth s k.val = false → (linkAt t k.val).role = 2 ∧ (linkAt t k.val).standsFor = BitVec.ofNat 5 p ∧
            (linkAt t k.val).taking = none ∧ (linkAt t k.val).unacked = [] ∧ ack ∈ (linkAt t k.val).ctrlQ) ∧
          (isEth s k.val = true → (linkAt t k.val).role = 1 ∧ (linkAt t k.val).answering = some p ∧
            (true, ack) ∈ smGet [] (linkAt t k.val).flowMgmt f))) ∧
    (mType m = 7 →
      (x.taking ≠ some q → exec (.spareAck i) s = .next { s with inbox := s.inbox.eraseIdx i }) ∧
      (x.taking = some q → ∃ t, exec (.spareAck i) s = .next t ∧ (linkAt t k.val).role = 2 ∧
        (linkAt t k.val).standsFor = BitVec.ofNat 5 q ∧ (linkAt t k.val).taking = none ∧ t.step = s.step ∧ (s.fabric.parked = [] →
        (linkAt t k.val).unacked = [] ∧
        (∀ v, v < x.chans.length → (chanAt (linkAt t k.val) v).queue = (chanAt x v).queue ++ (x.unacked.filter (fun u => u.vc = v)).map (fun u =>
          { cord := u.cord, sent := 0, flow := u.flow, again := true, void := false, mark := none })) ∧
        (∀ j, j ≠ k.val → j ≠ q → linkAt t j = linkAt s j) ∧ t.inbox = s.inbox.eraseIdx i ∧ t.kiln = s.kiln)))

/-- Rings (R255, R262 to R264, R266, R271). A stop whose half is clocked injects the flit that its round robin grants when the ring has a slot
for it, its segment has a share of the rings left and every destination a credit: the flit is in flight with the lanes that it will cross,
each destination has one credit less, and a reservation is used up. Otherwise nothing is injected: with nothing ready the turn ends. A flit
bound for the closed east half waits and raises a request for it, while the flits of the west half are injected as before, into the loop
of the west stops. A stop that has waited reserves a slot once. A stop whose half is not
clocked does nothing. -/
def Obligations.RingStopsInjectWithCredits : Prop :=
  ∀ (s : State) (stop : Fin 49) (ring : Fin 8),
    let p := stop.val; let r := ring.val; let turn := smGet (0, 0) s.fabric.turns (8 * p + r)
    let grant := ringGrant (ringReady s p r) (weights s) 7 turn.1 turn.2
    let mayInject := !s.power.bankDrains && !segFull s p && slotFor s p r
    let calm := ∀ v < 5, ∀ q ∈ (ringHead s p r v).toList, heldWest s q.1 = false
    (stopRuns s p = false → exec (.ringInject stop ring) s = .next s ∧ exec (.ringReservation stop ring) s = .next s) ∧
    (stopRuns s p = true →
      ((∀ (v n : Nat) (it : RingItem) (f : Nat), mayInject = true → grant = some (v, n) → ringHead s p r v = some (it, f) →
          ∃ t, exec (.ringInject stop ring) s = .next t ∧ t.step = s.step ∧ t.links = s.links ∧ t.inbox = s.inbox ∧ t.kiln = s.kiln ∧
            (calm → t = { s with fabric := t.fabric } ∧
              t.fabric = { s.fabric with
                items := s.fabric.items.map (fun x => if x.id = it.id then { x with sent := x.sent ++ [f] } else x),
                flight := t.fabric.flight, reserved := t.fabric.reserved, ejectUsed := t.fabric.ejectUsed, turns := t.fabric.turns,
                segBeats := t.fabric.segBeats }) ∧
            (s.power.eastClosed = true → heldWest s it = false) ∧
            smGet [] t.fabric.flight r = smGet [] s.fabric.flight r ++
              [{ item := it.id, flit := f, src := p, east := eastStop p, cross := crossings s it }] ∧
            (∀ r', r' ≠ r → smGet [] t.fabric.flight r' = smGet [] s.fabric.flight r') ∧
            smGet (0, 0) t.fabric.turns (8 * p + r) = (v, n) ∧
            smGet [] t.fabric.reserved r = (smGet [] s.fabric.reserved r).erase p ∧
            ∀ d, smGet 0 t.fabric.ejectUsed (creditKey d p v r) = smGet 0 s.fabric.ejectUsed (creditKey d p v r) + it.dests.count d) ∧
        (mayInject = false → ∃ t, exec (.ringInject stop ring) s = .next t ∧ t.fabric.flight = s.fabric.flight ∧
          (calm → t = { s with ctr := t.ctr, free := t.free })) ∧
        (mayInject = true → grant = none → ∃ t, exec (.ringInject stop ring) s = .next t ∧ t.fabric.flight = s.fabric.flight ∧
          (calm → t = { s with fabric := { s.fabric with turns := t.fabric.turns }, ctr := t.ctr, free := t.free }) ∧
          smGet (0, 0) t.fabric.turns (8 * p + r) = ((turn.1 + 1) % 5, 0))) ∧
      (∀ (v : Fin 5) (it : RingItem) (f : Nat), s.power.eastClosed = true → ringHead s p r v.val = some (it, f) → heldWest s it = true →
        ∃ t, exec (.ringInject stop ring) s = .next t ∧ (s.power.eastStopped = true → t.power.eastWanted = true) ∧
          (s.power.eastStopped = false → domSt s 61 = .banked → implemented s 61 = true → asked t 61) ∧
          ∃ x ∈ t.fabric.items, x.id = it.id ∧ f ∉ x.sent) ∧
      ((∃ v < 5, ∃ q ∈ (ringHead s p r v).toList, heldWest s q.1 = false) → p ∉ smGet [] s.fabric.reserved r →
        ∃ t, exec (.ringReservation stop ring) s = .next t ∧ t = { s with fabric := { s.fabric with reserved := t.fabric.reserved } } ∧
          smGet [] t.fabric.reserved r = smGet [] s.fabric.reserved r ++ [p] ∧
          ∀ r', r' ≠ r → smGet [] t.fabric.reserved r' = smGet [] s.fabric.reserved r') ∧
      (p ∈ smGet [] s.fabric.reserved r ∨ (∀ v < 5, ∀ q ∈ (ringHead s p r v).toList, heldWest s q.1 = true) →
        exec (.ringReservation stop ring) s = .next s))

/-- Hall frames that carry nothing of use (R234, R243, R251, R437). A frame that fails its FCS counts with the link's CRC errors; a PAUSE, a
frame whose EtherType or address is not the port's, that names no flow of it or one that is down, or whose length disagrees, is dropped and
counted by its reason, against the flow that it names or else the port: nothing but that counter changes. A reserved version is a protocol
error. On a port that is not an Ethernet port that is UP a frame is lost. -/
def Obligations.StrayHallFramesAreDropped : Prop :=
  ∀ (s : State) (p : Fin 18) (fr : HallFrame), let k := p.val
    (ethLive s k = false → exec (.fragmentReceive p fr) s = .next s ∧ exec (.hallAck p fr) s = .next s) ∧
    exec (.hallAck p fr) s = exec (.fragmentReceive p fr) s ∧
    (∀ c, ethLive s k = true → effPort s k = some c →
      let mine := fr.fcsOk && !fr.pause && fr.etherType == c.etherType && fr.dstMac == c.srcMac
      let stray := fun (n : Nat) (t : State) => t = { s with links := t.links } ∧ (∀ j, j ≠ k → linkAt t j = linkAt s j) ∧
        linkAt t k = { linkAt s k with strayCtr := (linkAt t k).strayCtr } ∧
        ∀ j, smGet 0 (linkAt t k).strayCtr j = if j = n then min (smGet 0 (linkAt s k).strayCtr n + 1) ctrMax else smGet 0 (linkAt s k).strayCtr j
      let onFlow := fun (f n : Nat) (t : State) => t = { s with links := t.links } ∧ (∀ j, j ≠ k → linkAt t j = linkAt s j) ∧
        linkAt t k = { linkAt s k with flows := (linkAt t k).flows } ∧ (∀ g, g ≠ f → flowAt t k g = flowAt s k g) ∧
        flowAt t k f = { flowAt s k f with ctr := (flowAt t k f).ctr } ∧
        ∀ j, smGet 0 (flowAt t k f).ctr j = if j = n then min (smGet 0 (flowAt s k f).ctr n + 1) ctrMax else smGet 0 (flowAt s k f).ctr j
      (fr.fcsOk = false → ∃ t, exec (.fragmentReceive p fr) s = .next t ∧ t = { s with ctr := t.ctr } ∧
        ∀ o, smGet 0 t.ctr o = if o = linkBase k + 0xF0 then min (smGet 0 s.ctr o + 1) ctrMax else smGet 0 s.ctr o) ∧
      (fr.fcsOk = true → fr.pause = true → ∃ t, exec (.fragmentReceive p fr) s = .next t ∧ stray 10 t) ∧
      (fr.fcsOk = true → fr.pause = false → fr.etherType ≠ c.etherType ∨ fr.dstMac ≠ c.srcMac →
        let n := if fr.etherType ≠ c.etherType then 6 else 7
        (flowNamed s k fr.h4 = none → ∃ t, exec (.fragmentReceive p fr) s = .next t ∧ stray n t) ∧
        (∀ f, flowNamed s k fr.h4 = some f → ∃ t, exec (.fragmentReceive p fr) s = .next t ∧ onFlow f n t)) ∧
      (mine = true → flowNamed s k fr.h4 = none → ∃ t, exec (.fragmentReceive p fr) s = .next t ∧ stray 8 t) ∧
      (∀ f, mine = true → flowNamed s k fr.h4 = some f →
        let sized := decide (fr.body.length = max (fieldOf fr.h0 32 16) (minBody fr.tagged))
        (sized = false → ∃ t, exec (.fragmentReceive p fr) s = .next t ∧ onFlow f 9 t) ∧
        (sized = true → (flowAt s k f).state = 3 → ∃ t, exec (.fragmentReceive p fr) s = .next t ∧ onFlow f 8 t) ∧
        (sized = true → (flowAt s k f).state ≠ 3 → fieldOf fr.h0 56 8 ≠ 1 → ∃ t, exec (.fragmentReceive p fr) s = .next t ∧
          smGet 0 t.ctr (linkBase k + 0x100) = min (smGet 0 s.ctr (linkBase k + 0x100) + 1) ctrMax ∧ t.links = s.links ∧ t.inbox = s.inbox)))

/-- Hall flows (R236 to R243, R258, R326). A frame for this port establishes its flow; its ACK_SEQ takes the units before it off the list and frees
their buffers, but one past the next unit to send tells nothing. A first fragment in order is held in the buffer that will take its cord, and with
no room there it is refused; a MGMT unit in order is delivered and ACK_SEQ advances; a unit before ACK_SEQ is counted and acknowledged again. The
ACK timer and the establishment timer put an ACK frame of a flow ahead of what is queued, once. A unit whose 40 µs are over is sent again whole, and
the 32nd sending takes its flow down; so does HALL_DEAD without progress, and nothing is outstanding then. PCS_LINK_UP brings the port UP with its
flows to be established. A frame is granted where the deficit of the channel whose turn it is covers it, in the order of its channel. -/
def Obligations.HallFlowsAcknowledgeAndRetransmit : Prop :=
  (∀ (s : State) (p : Fin 18) (fr : HallFrame) (c : PortCfg) (f : Nat), let k := p.val; let x := flowAt s k f
    let seq := BitVec.ofNat 32 (fieldOf fr.h0 0 32); let body := fr.body.take (fieldOf fr.h0 32 16)
    ethLive s k = true → effPort s k = some c → fr.fcsOk = true → fr.pause = false → fr.etherType = c.etherType → fr.dstMac = c.srcMac →
    flowNamed s k fr.h4 = some f → fr.body.length = max (fieldOf fr.h0 32 16) (minBody fr.tagged) → x.state ≠ 3 → fieldOf fr.h0 56 8 = 1 →
    fr.h2 = 0 → fr.h3 = 0 →
    (fieldOf fr.h0 52 4 = 1 → ∃ t, exec (.hallAck p fr) s = .next t ∧ t = { s with links := t.links, kiln := { s.kiln with used := t.kiln.used } } ∧
      (∀ j, j ≠ k → linkAt t j = linkAt s j) ∧ (∀ g, g ≠ f → flowAt t k g = flowAt s k g) ∧
      let ack := BitVec.ofNat 32 (fieldOf fr.h1 32 32)
      flowAt t k f = { x with
        state := if x.state = 0 ∨ x.state = 1 then 2 else x.state,
        units := if (hallAhead x.nextSeq ack).isNone then x.units else x.units.filter (fun u => (hallAhead u.seq ack).isSome) }) ∧
    (x.units = [] → seq ≠ 0 →
      (fieldOf fr.h0 52 4 = 0 → fieldOf fr.h0 48 1 = 0 → seq = x.rxAck → x.heldUnits = [] →
        let held : HallHeld := { seq := seq, vc := fieldOf fr.h0 49 3, type := 0, frag0 := some body, frag1 := none, whole := none,
                                 void := false, buf := noBuf }
        (∀ u b, destUse s k held = some (some u) → pickBuf s (cIdx (cordOfBytes body)) = some b → ∃ t, exec (.fragmentReceive p fr) s = .next t ∧
          t = { s with links := t.links, kiln := { s.kiln with used := t.kiln.used }, faults := (timed s t).faults } ∧
          (b, u) ∈ t.kiln.used ∧ (flowAt t k f).rxAck = x.rxAck ∧ (flowAt t k f).heldUnits = [{ held with buf := b }]) ∧
        (destUse s k held = none → ∃ t, exec (.fragmentReceive p fr) s = .next t ∧ (flowAt t k f).rxAck = x.rxAck ∧
          (flowAt t k f).heldUnits = [] ∧ t.kiln.used = s.kiln.used)) ∧
      (fieldOf fr.h0 52 4 = 3 → seq = x.rxAck → x.heldUnits = [] → fieldOf fr.h0 49 3 = 4 → ∃ t, exec (.fragmentReceive p fr) s = .next t ∧
        (flowAt t k f).rxAck = hallNext x.rxAck ∧ (flowAt t k f).ackOwed = true ∧ (flowAt t k f).heldUnits = [] ∧ t.step = s.step) ∧
      (fieldOf fr.h0 52 4 = 0 ∨ fieldOf fr.h0 52 4 = 2 ∨ fieldOf fr.h0 52 4 = 3 → (hallAhead seq x.rxAck).isNone = true →
        ∃ t, exec (.fragmentReceive p fr) s = .next t ∧ t = { s with links := t.links } ∧ (flowAt t k f).rxAck = x.rxAck ∧
          (flowAt t k f).heldUnits = x.heldUnits ∧ smGet 0 (flowAt t k f).ctr 3 = min (smGet 0 x.ctr 3 + 1) ctrMax ∧
          ∃ a ∈ (linkAt t k).txFrames, a.type = 1 ∧ a.flow = f))) ∧
  (∀ (s : State) (p : Fin 18) (f : Fin 64), let k := p.val; let x := flowAt s k f.val
    (ethLive s k = false ∨ x.ackOwed = false → exec (.hallAckTimer p f) s = .next s) ∧
    (ethLive s k = true → x.ackOwed = true → ∃ t, exec (.hallAckTimer p f) s = .next t ∧ t = { s with links := t.links } ∧
      (∀ j, j ≠ k → linkAt t j = linkAt s j) ∧ linkAt t k = { linkAt s k with
        txFrames := if (linkAt s k).txFrames.any (fun a => a.type == 1 && a.flow == f.val) then (linkAt s k).txFrames
          else mkFrame f.val 1 0 0 0 [] :: (linkAt s k).txFrames }) ∧
    (ethLive s k = false → exec (.hallEstablishAck p) s = .next s) ∧
    (ethLive s k = true → ∃ t, exec (.hallEstablishAck p) s = .next t ∧ t = { s with links := t.links } ∧
      (∀ j, j ≠ k → linkAt t j = linkAt s j) ∧ linkAt t k = { linkAt s k with txFrames := (linkAt t k).txFrames } ∧
      (∀ a ∈ (linkAt s k).txFrames, a ∈ (linkAt t k).txFrames) ∧
      ∀ y ∈ (linkAt s k).flows, y.2.state = 1 ∨ y.2.state = 2 → ∃ a ∈ (linkAt t k).txFrames, a.type = 1 ∧ a.flow = y.1) ∧
    (∀ seq, ethLive s k = false ∨ (∀ u ∈ x.units, u.seq ≠ seq) → exec (.hallRetransmit p f seq) s = .next s) ∧
    (∀ u, ethLive s k = true → x.units.find? (fun w => w.seq == u.seq) = some u →
      (u.resend ≠ [] ∨ u.lastTx = 0 → exec (.hallRetransmit p f u.seq) s = .next s) ∧
      (u.resend = [] → u.lastTx ≠ 0 → u.sends < 31 → ∃ t, exec (.hallRetransmit p f u.seq) s = .next t ∧
        (flowAt t k f.val).units = x.units.map (fun w =>
          if w.seq = u.seq then { w with resend := List.range w.bodies.length, sends := w.sends + 1 } else w) ∧
        (flowAt t k f.val).state = x.state ∧ (∀ j, j ≠ k → linkAt t j = linkAt s j) ∧ t.step = s.step ∧ t.inbox = s.inbox) ∧
      (u.resend = [] → u.lastTx ≠ 0 → 31 ≤ u.sends → x.state = 1 ∨ x.state = 2 → ∃ t, exec (.hallRetransmit p f u.seq) s = .next t ∧
        (flowAt t k f.val).state = 3 ∧ (flowAt t k f.val).units = [])) ∧
    (x.units = [] → exec (.flowDown p f) s = .next s) ∧
    (isEth s k = true → x.units ≠ [] → x.state = 1 ∨ x.state = 2 → ∃ t, exec (.flowDown p f) s = .next t ∧
      (flowAt t k f.val).state = 3 ∧ (flowAt t k f.val).units = [] ∧ (flowAt t k f.val).heldUnits = [])) ∧
  (∀ (s : State) (p : Fin 18), let k := p.val; let x := linkAt s k; isEth s k = true →
    (x.state ≠ .training → x.state ≠ .down → exec (.pcsLinkUp p) s = .next s) ∧
    (∀ c, effPort s k = some c → x.state = .training ∨ x.state = .down → ∃ t, exec (.pcsLinkUp p) s = .next t ∧ t = { s with links := t.links } ∧
      (∀ j, j ≠ k → linkAt t j = linkAt s j) ∧ (linkAt t k).state = .up ∧ (linkAt t k).rate = BitVec.ofNat 2 c.rate ∧
      (linkAt t k).width = BitVec.ofNat 2 c.width ∧ (linkAt t k).lanesGood = widthMask c.width ∧
      ∀ g, g < c.peers.length → (flowAt s k g).state = 0 → flowAt t k g = { flowAt s k g with state := 1 } ∧
        ∃ a ∈ (linkAt t k).txFrames, a.type = 1 ∧ a.flow = g) ∧
    (ethLive s k = false ∨ (∀ v < 5, headBody s k v = none) → exec (.flitTransmit (.port p)) s = .next s) ∧
    (∀ b, ethLive s k = true → s.inject.enable = false → headBody s k x.turn = some b → x.turn < 5 → x.taken ≠ 0 →
      wireLen (tags s k) b ≤ (chanAt x x.turn).deficit →
      x.txFrames.foldl (fun n a => n + frameLen (tags s k) a.body.length) 0 +
        frameLen (tags s k) (([0, 1, 2, 3, 4].filterMap (headBody s k)).foldl max 0) ≤ 16384 →
      ∃ t, exec (.flitTransmit (.port p)) s = .next t ∧ (linkAt t k).txFrames.length = x.txFrames.length + 1 ∧
        ∃ a ∈ (linkAt t k).txFrames, a.body.length = b ∧ frameChan a.type a.vc = x.turn))

/-! ### Leaves -/

/-- The counter port (R127, R128, R129): ADD in the step adds and holds at 0xFFFF_FFFF; outside it is discarded and counted; READ answers
with the counter; a reserved code is ignored and counted; no other counter and no other leaf changes; a leaf that does not work does
nothing. -/
def Obligations.TileCountersAddAndSaturate : Prop :=
  ∀ (s : State) (t : Fin 576) (sel : BitVec 6) (amt : BitVec 16) (op : BitVec 2), let l := leafAt s t.val
    let counted := fun (off : Nat) (u : State) => ∀ o, smGet 0 u.ctr o =
      if o = 0x460000 + 0x40 * segOf t.val + off then min (smGet 0 s.ctr o + 1) ctrMax else smGet 0 s.ctr o
    (leafLive s t.val = false → exec (.counterAdd t op sel amt) s = .next s ∧ exec (.counterRead t sel) s = .next s) ∧
    (leafLive s t.val = true →
      (∃ u, exec (.counterRead t sel) s = .next u ∧ u = { s with leaves := u.leaves } ∧
        leafAt u t.val = { l with cntRdata := smGet 0 l.counters sel.toNat, cntRvalid := true } ∧ ∀ k, k ≠ t.val → leafAt u k = leafAt s k) ∧
      (∃ u, exec (.counterAdd t 1 sel amt) s = .next u ∧ u = { s with leaves := u.leaves } ∧
        leafAt u t.val = { l with cntRdata := smGet 0 l.counters sel.toNat, cntRvalid := true } ∧ ∀ k, k ≠ t.val → leafAt u k = leafAt s k) ∧
      (l.stepOpen = true → ∃ u, exec (.counterAdd t 0 sel amt) s = .next u ∧
        (smGet 0 (leafAt u t.val).counters sel.toNat).toNat = min ((smGet 0 l.counters sel.toNat).toNat + amt.toNat) 0xFFFFFFFF ∧
        (∀ c, c ≠ sel.toNat → smGet 0 (leafAt u t.val).counters c = smGet 0 l.counters c) ∧ (leafAt u t.val).cntRvalid = false ∧
        (∀ k, k ≠ t.val → leafAt u k = leafAt s k) ∧ u.step = s.step ∧ u.kiln = s.kiln ∧ u.inbox = s.inbox ∧ u.links = s.links) ∧
      (l.stepOpen = false → ∃ u, exec (.counterAdd t 0 sel amt) s = .next u ∧ u = { s with leaves := u.leaves, ctr := u.ctr } ∧
        leafAt u t.val = { l with cntRvalid := false } ∧ (∀ k, k ≠ t.val → leafAt u k = leafAt s k) ∧ counted 0x20 u) ∧
      (2 ≤ op.toNat → ∃ u, exec (.counterAdd t op sel amt) s = .next u ∧ u = { s with leaves := u.leaves, ctr := u.ctr } ∧
        leafAt u t.val = { l with cntRvalid := false } ∧ (∀ k, k ≠ t.val → leafAt u k = leafAt s k) ∧ counted 0x28 u))

/-- Firing (R131, R132): however far a counter has passed its thresholds, a trigger entry never issues more cords than its count; it issues
the next ones, each once and in order, into the firing queue; it keeps its place and words, and is left disarmed or waiting for a threshold
that the counter has not reached; an entry that is not armed, or not reached, issues nothing. -/
def Obligations.TriggersIssueTheirCordsOnce : Prop :=
  ∀ (e : PlanEntry) (pos v : Nat) (tr : Trig) (fuel : Nat), tr.issued ≤ trCount tr.w1 →
    let r := fireLoop e pos v fuel tr []
    r.1.issued ≤ trCount tr.w1 ∧ tr.issued ≤ r.1.issued ∧
    r.2.1.map (fun f => f.cord) = (List.range (r.1.issued - tr.issued)).map (fun i => trigCord e pos tr.w1 (tr.issued + i)) ∧
    r.1.w0 = tr.w0 ∧ r.1.w1 = tr.w1 ∧ r.1.slot = tr.slot ∧ (∀ f ∈ r.2.1, f.slot = tr.slot ∧ f.plan = eIdx e ∧ f.kind = .data) ∧
    ((tr.armed = false ∨ v < tr.threshold) → r.1 = tr ∧ r.2.1 = []) ∧
    (tr.issued < trCount tr.w1 → trCount tr.w1 ≤ tr.issued + fuel → r.1.armed = true → v < r.1.threshold)

/-- Reading a cord (R106, R126, R132, R133, R138 to R141, R144, R193). The head of the firing queue begins with the read of its mask line, where its
ring has one, else of the rows that may be present; a BARRIER is sent without a read; a head that may not be offered stays, and a RESTORE read goes
in its place. A grant moves the oldest read beat from wanted to granted; the data of a beat are kept, a mask line's tell the rows to read, and with
the last one the cord leaves the leaf with its plan index, cord index and step. A read given up keeps its beats and gives no cord. A read begun or
granted restarts the timer of the leaf (R403); a read grant that is long withheld logs one staging stall for the cord. A leaf that does not work
does nothing. -/
def Obligations.LeavesReadTheirCords : Prop :=
  (∀ (s : State) (t : Fin 576) (d : BitVec 512), let l := leafAt s t.val
    (leafLive s t.val = false → exec (.cordReadStart t) s = .next s ∧ exec (.readGrant t) s = .next s ∧
      exec (.readData t d) s = .next s ∧ exec (.stagingStall t) s = .next s) ∧
    (leafLive s t.val = true → (l.reading.isSome = true ∨ (l.fireQ = [] ∧ l.restoreQ = []) → exec (.cordReadStart t) s = .next s) ∧
      (l.reading = none → (∃ u, exec (.readGrant t) s = .next u ∧ u = { timed s u with leaves := u.leaves } ∧ ∀ k, leafAt u k = leafAt s k) ∧
        exec (.readData t d) s = .next s ∧ exec (.stagingStall t) s = .next s) ∧
      (∀ (f : Firing) (q : List Firing) (e : PlanEntry), l.reading = none → l.fireQ = f :: q → entryAt s f.plan = some e →
        (∀ tr, mayOffer s t.val f = true → f.kind = .data → eKind e ≠ 5 → l.trigs.find? (fun x => x.slot == f.slot) = some tr →
          let ring := smGet 0 l.rings (trRing tr.w0)
          let b := stagingBase e ring (if eKind e = 4 then f.cord % eQ e else f.cord)
          let rows := rowsOfCord e (posNow s e) f.cord
          let beats := rowBeats b.1 (rowPitch (eMl e) (eFmt e)) rows (offeredMask e l f.cord rows)
          (srMaskLine ring = true → eKind e ≠ 8 → ∃ u r, exec (.cordReadStart t) s = .next u ∧ u = { timed s u with leaves := u.leaves } ∧
            leafAt u t.val = { l with fireQ := q, reading := some r } ∧ (∀ k, k ≠ t.val → leafAt u k = leafAt s k) ∧ r.firing = f ∧
            r.want = [{ addr := beatAddr (b.1 - 64), half := 3, isMask := true }] ∧ r.wait = [] ∧ r.rows = rows ∧ r.base = b.1 ∧
            r.void = false ∧ r.restore = none) ∧
          (srMaskLine ring = false ∨ eKind e = 8 → beats ≠ [] → ∃ u r, exec (.cordReadStart t) s = .next u ∧
            u = { timed s u with leaves := u.leaves } ∧ leafAt u t.val = { l with fireQ := q, reading := some r } ∧
            (∀ k, k ≠ t.val → leafAt u k = leafAt s k) ∧ r.firing = f ∧ r.want = beats ∧ r.wait = [] ∧ r.rows = rows ∧ r.base = b.1 ∧
            r.void = false ∧ r.restore = none)) ∧
        (mayOffer s t.val f = true → f.kind = .data → eKind e = 5 → ∃ u, exec (.cordReadStart t) s = .next u ∧
          leafAt u t.val = { l with fireQ := q } ∧ ∃ c ∈ cordsUnderWay u, c = leafCord s e t.val f.cord 0 0 0 []) ∧
        (mayOffer s t.val f = false → l.restoreQ = [] → ∃ u, exec (.cordReadStart t) s = .next u ∧ ∀ k, leafAt u k = leafAt s k) ∧
        (∀ r rs, mayOffer s t.val f = false → l.restoreQ = r :: rs → r.want ≠ [] → ∃ u, exec (.cordReadStart t) s = .next u ∧
          leafAt u t.val = { l with restoreQ := rs, reading := some r } ∧ ∀ k, k ≠ t.val → leafAt u k = leafAt s k)))) ∧
  (∀ (s : State) (t : Fin 576) (r : ReadCtx), let l := leafAt s t.val; leafLive s t.val = true → l.reading = some r →
    (∀ b bs, r.want = b :: bs → ∃ u, exec (.readGrant t) s = .next u ∧ u = { timed s u with leaves := u.leaves } ∧
      leafAt u t.val = { l with reading := some { r with want := bs, wait := r.wait ++ [b] } } ∧ ∀ k, k ≠ t.val → leafAt u k = leafAt s k) ∧
    (r.want = [] → ∃ u, exec (.readGrant t) s = .next u ∧ u = { timed s u with leaves := u.leaves } ∧ ∀ k, leafAt u k = leafAt s k) ∧
    (∀ (d : BitVec 512) (e : PlanEntry), entryAt s r.firing.plan = some e → r.wait ≠ [] → r.void = false → let r' := takeBeat e l d r
      (∀ b bs, r.wait = b :: bs → b.isMask = false → r' = { r with wait := bs, got := r.got ++ [(b.addr, leBytes 64 d.toNat)] }) ∧
      (r'.want ≠ [] ∨ r'.wait ≠ [] → ∃ u, exec (.readData t d) s = .next u ∧ u = { s with leaves := u.leaves } ∧
        leafAt u t.val = { l with reading := some r' } ∧ ∀ k, k ≠ t.val → leafAt u k = leafAt s k) ∧
      (r'.want = [] → r'.wait = [] → ∃ u, exec (.readData t d) s = .next u ∧ (leafAt u t.val).reading = none ∧
        (eKind e ≤ 3 → r.restore = none → ∃ c ∈ cordsUnderWay u, cPlan c = eIdx e % 4096 ∧ cIdx c = r.firing.cord % 65536 ∧
          cStep c = stepNo s ∧ cRows c = r.rows % 65536))) ∧
    (∀ (d : BitVec 512) b bs, r.void = true → r.wait = b :: bs → ∃ u, exec (.readData t d) s = .next u ∧ u = { s with leaves := u.leaves } ∧
      leafAt u t.val = { l with reading := if r.want = [] ∧ bs = [] then none else some { r with wait := bs } }) ∧
    (r.want ≠ [] → r.stalled = false → r.void = false → ∃ u, exec (.stagingStall t) s = .next u ∧ u.step.state = s.step.state ∧
      leafAt u t.val = { l with reading := some { r with stalled := true } } ∧ (∀ k, k ≠ t.val → leafAt u k = leafAt s k) ∧
      smGet 0 u.ctr (0x460000 + 0x40 * segOf t.val + 0x10) = min (smGet 0 s.ctr (0x460000 + 0x40 * segOf t.val + 0x10) + 1) ctrMax) ∧
    (r.want = [] ∨ r.stalled = true ∨ r.void = true → exec (.stagingStall t) s = .next s))

/-- Writing to a tile (R126, R148, R149, R151, R152, R154, R175, R369). A landing begins with its rows and record, where nothing is being written
and its turn has come; a grant takes one beat. The landing record's grant bumps the entry's COMPLETION counter; the step record's bumps its counter,
and the seal record's also lowers LI_STEP_OPEN. A landing given up gives its beats and nothing else. A landing begun or granted restarts the timer
of the leaf (R403). Held cords whose permit is met leave for the leaf over the rings, each of them, and the others stay. A refused landing logs one
stall. A leaf that does not work does nothing. -/
def Obligations.LeavesWriteWhatLands : Prop :=
  (∀ (s : State) (t : Fin 576), let l := leafAt s t.val
    (leafLive s t.val = false → exec (.cordLand t) s = .next s ∧ exec (.writeGrant t) s = .next s ∧ exec (.landingStall t) s = .next s ∧
      ∀ n, exec (.heldCordRelease t n) s = .next s) ∧
    (leafLive s t.val = true →
      (l.writing.isSome = true ∨ l.recQ ≠ [] ∨ l.landQ = [] → exec (.cordLand t) s = .next s) ∧
      (l.writing = none → exec (.writeGrant t) s = .next s ∧ exec (.landingStall t) s = .next s) ∧
      (∀ (it : LandItem) (q : List LandItem) (x : Land) (e : PlanEntry), l.writing = none → l.recQ = [] → l.landQ = it :: q →
        l.lands.find? (fun y => y.slot == it.slot) = some x → inTurn s t.val x it = true → entryAt s (cPlan it.cord) = some e →
        ∃ u, exec (.cordLand t) s = .next u ∧ u = { timed s u with leaves := u.leaves } ∧ (∀ k, k ≠ t.val → leafAt u k = leafAt s k) ∧
          leafAt u t.val = { l with
            landQ := q,
            writing := some { slot := it.slot, cord := some it.cord, beats := landingBeats s e x t.val it.cord, stalled := false,
                              void := false } }))) ∧
  (∀ (s : State) (t : Fin 576) (w : WriteCtx), let l := leafAt s t.val; leafLive s t.val = true → l.writing = some w →
    (∀ b b2 bs, w.beats = b :: b2 :: bs → b.kind = .row ∨ w.void = true → ∃ u, exec (.writeGrant t) s = .next u ∧
      u = { timed s u with leaves := u.leaves } ∧ leafAt u t.val = { l with writing := some { w with beats := b2 :: bs } } ∧
      ∀ k, k ≠ t.val → leafAt u k = leafAt s k) ∧
    (∀ b, w.beats = [b] → w.void = true → ∃ u, exec (.writeGrant t) s = .next u ∧ u = { timed s u with leaves := u.leaves } ∧
      leafAt u t.val = nextRecord { l with writing := none } ∧ ∀ k, k ≠ t.val → leafAt u k = leafAt s k) ∧
    (∀ b c x, w.beats = [b] → w.void = false → b.kind = .record → w.cord = some c → l.lands.find? (fun y => y.slot == w.slot) = some x →
      ∃ u, exec (.writeGrant t) s = .next u ∧ (leafAt u t.val).writing = (nextRecord { l with writing := none }).writing ∧
        (smGet 0 (leafAt u t.val).counters (leCompletion x.w0)).toNat =
          min ((smGet 0 l.counters (leCompletion x.w0)).toNat + 1) 0xFFFFFFFF) ∧
    (∀ b, w.beats = [b] → w.void = false → b.kind = .stepRec ∨ b.kind = .sealRec → ∃ u, exec (.writeGrant t) s = .next u ∧
      (smGet 0 (leafAt u t.val).counters (stepRecCounter s)).toNat = min ((smGet 0 l.counters (stepRecCounter s)).toNat + 1) 0xFFFFFFFF ∧
      (leafAt u t.val).writing = (nextRecord { l with writing := none }).writing ∧
      (leafAt u t.val).stepOpen = (l.stepOpen && (decide (b.kind = .stepRec) || !l.sealing)) ∧ ∀ k, k ≠ t.val → leafAt u k = leafAt s k) ∧
    (∀ c, w.cord = some c → w.stalled = false → w.void = false → ∃ u, exec (.landingStall t) s = .next u ∧
      leafAt u t.val = { l with writing := some { w with stalled := true } } ∧ (∀ k, k ≠ t.val → leafAt u k = leafAt s k) ∧
      u.step.state = s.step.state ∧
      smGet 0 u.ctr (0x460000 + 0x40 * segOf t.val + 0x18) = min (smGet 0 s.ctr (0x460000 + 0x40 * segOf t.val + 0x18) + 1) ctrMax) ∧
    (w.cord = none ∨ w.stalled = true ∨ w.void = true → exec (.landingStall t) s = .next s)) ∧
  (∀ (s : State) (t : Fin 576) (n : Fin 64) (x : Land), let l := leafAt s t.val; leafLive s t.val = true →
    l.lands.find? (fun y => y.slot == n.val) = some x →
    (x.met = false → exec (.heldCordRelease t n) s = .next s) ∧
    (x.met = true → (∀ h ∈ l.held, ∀ b ∈ h.buf.toList, b < 3072) → ∃ u, exec (.heldCordRelease t n) s = .next u ∧
      u = { s with leaves := u.leaves, fabric := u.fabric, kiln := { s.kiln with used := u.kiln.used } } ∧
      (∀ k, k ≠ t.val → leafAt u k = leafAt s k) ∧ leafAt u t.val = { l with
          lands := l.lands.map (fun z => if z.slot = n.val then { z with visible := true } else z),
          held := l.held.filter (fun h => h.slot != n.val) } ∧
      (∀ h ∈ l.held, h.slot = n.val → ∃ it ∈ u.fabric.items, it.item.body = .cord h.cord ∧ it.leaves = [(t.val, n.val)]) ∧
      ∀ it ∈ s.fabric.items, it ∈ u.fabric.items))

/-- A splice (R387, R388, R389): a parity error in the entries of a leaf that holds a position retires the tile and moves the position to an
idle spare, with a hold open; without a spare the die fails with cause 5. An idle spare is only retired; of a disabled or retired tile, of a
tile that holds no position, and without a burn image, nothing happens. SPLICE_REQ does the same for the tile that the host names, and one
that would splice nothing is ignored and counted. -/
def Obligations.SplicesMoveThePosition : Prop :=
  ∀ (s : State) (t : Fin 576) (v : Word), portLive s = true → v.extractLsb' 61 3 = 2 → v.extractLsb' 51 10 = BitVec.ofNat 10 t.val →
    let works := !s.params.hearthOnly && !s.kindle.disabledTaken.getLsbD t.val && !s.faults.retired.getLsbD t.val
    let idle := decide (t.val ∈ idleSpares s)
    let requested := fun (u : State) => u.faults.spliceTile = BitVec.ofNat 10 t.val ∧
      u.faults.recoveryLimit = (if fieldOf v 35 16 = 0 then 60 else BitVec.ofNat 16 (fieldOf v 35 16))
    (s.image = none → exec (.leafEntryParityError t) s = .next s) ∧
    (works = false ∨ (idle = false ∧ logicalOf s t.val = none) → exec (.leafEntryParityError t) s = .next s ∧
      ∃ u, exec (.spliceReq v) s = .next u ∧ requested u ∧ u.rp.ignored = satAdd s.rp.ignored 1 ∧ u.rp.lastOffset = 0x4110 ∧
        u = { s with rp := u.rp, faults := { s.faults with spliceTile := u.faults.spliceTile, recoveryLimit := u.faults.recoveryLimit } }) ∧
    (works = true → idle = true →
      (s.image.isSome = true → ∃ u, exec (.leafEntryParityError t) s = .next u ∧ u.faults.retired.getLsbD t.val = true ∧
        u = { s with faults := { s.faults with retired := u.faults.retired } }) ∧
      ∃ u, exec (.spliceReq v) s = .next u ∧ requested u ∧ u.faults.retired.getLsbD t.val = true ∧ u.step = s.step) ∧
    (∀ pos x, works = true → idle = false → logicalOf s t.val = some pos → s.faults.dieFailed = false → chooseSpare s t.val = some x →
      (s.image.isSome = true → ∃ u, exec (.leafEntryParityError t) s = .next u ∧ u.faults.retired.getLsbD t.val = true ∧
        physOf u pos = some x ∧ u.faults.hold = some .splice ∧ u.faults.pending.getLsbD 1 = true ∧ u.faults.dieFailed = false) ∧
      ∃ u, exec (.spliceReq v) s = .next u ∧ requested u ∧ u.faults.retired.getLsbD t.val = true ∧ physOf u pos = some x ∧
        u.faults.hold = some .splice ∧ u.faults.pending.getLsbD 1 = true ∧ u.faults.dieFailed = false) ∧
    (∀ pos, works = true → idle = false → logicalOf s t.val = some pos → s.faults.dieFailed = false → chooseSpare s t.val = none →
      (s.image.isSome = true → ∃ u, exec (.leafEntryParityError t) s = .next u ∧ u.faults.retired.getLsbD t.val = true ∧
        u.faults.dieFailed = true ∧ u.faults.cause = 5 ∧ u.step.state = .halted) ∧
      ∃ u, exec (.spliceReq v) s = .next u ∧ u.faults.dieFailed = true ∧ u.faults.cause = 5 ∧ u.step.state = .halted)

/-! ### Steps -/

/-- STEP_OPEN and LOCAL_COMPLETION (R177, R178, R199, R203). A half whose launch tick has come and whose domains are WARM opens, with the
leaf of each of its positions: counters and entries of the step, LI_STEP_OPEN up. The west half takes the plan engine with it, to OPEN with
nothing flagged or counted yet, SHORT as the causes give it, every node of an active entry there, and unclean only by what it already knows.
A half that may not open does nothing. Once everything local is complete the contribution goes out and the state is DONE. -/
def Obligations.StepsOpenAndComplete : Prop :=
  ∀ s : State,
    let leavesOpen := fun (east : Bool) (t : State) => ∀ p ∈ positionsOf s east, (leafAt t p.2).stepOpen = true ∧
      (leafAt t p.2).sealing = false ∧ (leafAt t p.2).counters = [] ∧ (leafAt t p.2).tallyPrev = (leafAt s p.2).tally ∧
      (leafAt t p.2).trigs.map (fun x => x.slot) =
        (((leafSetOf s p.1).map (loadTriggers s p.1)).getD []).map (fun x => x.slot)
    (mayOpen s false = true → ∃ t, exec (.stepOpen .west) s = .next t ∧ t.step.state = .opened ∧ t.step.openW = true ∧
      t.step.openE = s.step.openE ∧ t.step.number = s.step.number ∧ t.step.attempt = s.step.attempt ∧ t.step.flags = 0 ∧
      t.step.digestCur = [] ∧ t.step.contributed = false ∧ t.time.launchPending = false ∧ t.image = s.image ∧ t.time.tick = s.time.tick ∧
      t.step.short = (s.step.bcastShort || s.step.firstOut || s.step.attempt != 0 ||
        decide (claimable s < claimsOfStep s (stepNo s))) ∧
      t.step.unclean = s.step.uncleanNext ||| (if s.kiln.early.any (fun x => x.bad && (match x.item.body with
        | .cord c => cStep c == stepNo s
        | _ => true)) = true then uEcc else 0) ∧
      (∀ e ∈ activeEntries s, ∀ x ∈ nodesFor s e, (findNode t (eIdx e) x.node).isSome = true) ∧ leavesOpen false t) ∧
    (mayOpen s true = true → ∃ t, exec (.stepOpen .east) s = .next t ∧ t.step = { s.step with openE := true } ∧ t.kiln = s.kiln ∧
      t.image = s.image ∧ t.time.tick = s.time.tick ∧ leavesOpen true t) ∧
    (∀ h : Half, mayOpen s (h == .east) = false → exec (.stepOpen h) s = .next s) ∧
    (locallyComplete s = true → s.faults.dieFailed = false → ∃ t, exec .localCompletion s = .next t ∧
      t = feedSeal 0 (sealRow (reportsShort s) s)
        { s with step := { s.step with contributed := true, shortSent := reportsShort s, state := .done } } ∧
      t = { s with step := { s.step with contributed := true, shortSent := reportsShort s, state := .done }, inbox := t.inbox, fabric := t.fabric,
                   links := t.links }) ∧
    (locallyComplete s = false ∨ s.faults.dieFailed = true → exec .localCompletion s = .next s)

/-! ### Cords at the nodes -/

/-- A cord that an instance discards (R56): the discard is counted under its reason and logged, and nothing else changes. CORD_ARRIVE uses a cord
up, its buffer with it, and discards it before kindling (5), of another step (3), of no active entry (2), of an old epoch (4), and where it does not
fit its entry or its node (1); one behind its channel's drain marker waits for it; one of the coming attempt is held in the arrival reserve, or
stays with its sender where that is full. A cord that fits is the operand of its child in a buffer of its node, waits while its node is not
admitted, out of its window or not WARM, and goes on at once as the node's result where it is the only child's (R35), with the flags joined at the
node. A PASS or MIRROR cord is taken once at its target die, a PASS cord that must wait for its permit within its hold's claim. A cord whose buffer
went bad before the open makes the attempt unclean where it is taken. Error words met on the way are dealt with first (R203). -/
def Obligations.CordsReachTheirNode : Prop :=
  (∀ (s : State) (p c r u : Nat), 1 ≤ r → ∃ t, discard p c r u s = t ∧ t = { s with ctr := t.ctr, log := t.log, free := t.free } ∧
    smGet 0 t.ctr (0x400 + 8 * (r - 1)) = min (smGet 0 s.ctr (0x400 + 8 * (r - 1)) + 1) ctrMax) ∧
  (∀ (s : State) (i : Nat) (a : Arrival) (c : Cord), s.inbox[i]? = some a → a.body = .cord c → isUpward a c = true →
    let s0 := withSome a.buf { s with inbox := s.inbox.eraseIdx i } giveBuf
    let drop := fun (r : Nat) => (Host.Outcome.next (discard (cPlan c) (cIdx c) r (kilnCode s (cIdx c)) s0) :
      Host.Outcome State Fault Refusal)
    let x? := findNode s (cPlan c) (nodeOfArrival s a c).1
    let child := (nodeOfArrival s a c).2
    (∀ ecc, ∃ t, exec (.cordArrive i []) s = .next t ∧ exec (.cordArrive i ecc) s = .next (eccHits ecc t)) ∧
    (drainAhead s a = true → exec (.cordArrive i []) s = .next s) ∧
    (drainAhead s a = false → (isReady s = false → exec (.cordArrive i []) s = drop 5) ∧
      (isReady s = true → stepMatch s a c = 2 → exec (.cordArrive i []) s = drop 3) ∧
      (isReady s = true → stepMatch s a c = 1 →
        (policy s (fun p => p.arrivalReserve) 64 ≤ usedOf s0 .arrival → exec (.cordArrive i []) s = .next s) ∧
        (∀ b, usedOf s0 .arrival < policy s (fun p => p.arrivalReserve) 64 → a.buf.elim (pickBuf s0 (cIdx c)) some = some b → ∃ t,
          exec (.cordArrive i []) s = .next t ∧ t = { s0 with kiln := t.kiln } ∧
          t.kiln = { s0.kiln with
            used := smPut s0.kiln.used b .arrival,
            early := s0.kiln.early ++ [{ buf := b, item := { a with buf := none, bad := false }, bad := a.bad }] })) ∧
      (isReady s = true → stepMatch s a c = 0 →
        (entryAt s (cPlan c) = none → exec (.cordArrive i []) s = drop 2) ∧
        (∀ e, entryAt s (cPlan c) = some e →
          (eOpActive e (cStep c) = false → exec (.cordArrive i []) s = drop 2) ∧
          (eOpActive e (cStep c) = true → cEpoch c ≠ epochOf s (eGroup e) → exec (.cordArrive i []) s = drop 4) ∧
          (eOpActive e (cStep c) = true → cEpoch c = epochOf s (eGroup e) → a.bad = true →
            (arrive a c e s0 = none → exec (.cordArrive i []) s = .next s) ∧
            (∀ t, arrive a c e s0 = some t → exec (.cordArrive i []) s = .next (raiseUnclean uEcc t))) ∧
          (eOpActive e (cStep c) = true → cEpoch c = epochOf s (eGroup e) → a.bad = false →
            (cordFits s e c = false → exec (.cordArrive i []) s = drop 1) ∧
            (cKind c ≤ 6 → x? = none → exec (.cordArrive i []) s = drop 1) ∧
            (∀ (g : GroupDef) (x : NodeInst), cKind c ≤ 6 → entryGroup s e = some g → x? = some x → cordFits s e c = true →
              let kids := cordChildren s e g (nodeOfArrival s a c).1 (cIdx c)
              let ops := ((findOpen x (cIdx c)).map (fun o => o.ops)).getD []
              let gone := x.closed.contains (cIdx c) || ((findOpen x (cIdx c)).map (fun o =>
                o.forwarded || o.sent || o.partialOut.isSome || o.ops.any (fun q => q.child == child))).getD false
              let open' := (x.admitted = true ∨ x.claim = 0) ∧ inWin x (cIdx c) = true ∧
                live s (nodeDom s (nodeOfArrival s a c).1 (cIdx c)) = true
              (child ∉ kids ∨ handles s x (cIdx c) = false ∨ gone = true → exec (.cordArrive i []) s = drop 1) ∧
              (child ∈ kids → handles s x (cIdx c) = true → gone = false →
                (¬ open' → exec (.cordArrive i []) s = .next s) ∧
                (open' → 2 ≤ kids.length → eKind e ≠ 5 → ∃ t y o b, exec (.cordArrive i []) s = .next t ∧
                  t = { s0 with kiln := t.kiln, ctr := t.ctr, faults := (timed s t).faults } ∧ findNode t (cPlan c) (nodeOfArrival s a c).1 = some y ∧
                  findOpen y (cIdx c) = some o ∧ o.forwarded = false ∧ o.sent = false ∧ o.partialOut = none ∧
                  o.ops = ops ++ [{ child := child, buf := b, cord := c }] ∧ (x.claim = 0 → b = noBuf) ∧
                  (∀ k, x.claim ≠ 0 → a.buf = some k → b = k)) ∧
                (open' → kids.length = 1 → eKind e ≠ 5 → ∃ t y, exec (.cordArrive i []) s = .next t ∧
                  findNode t (cPlan c) (nodeOfArrival s a c).1 = some y ∧
                  let late := if ((findOpen x (cIdx c)).map (fun o => o.late)).getD false = true then fLate else 0
                  let out := passOutput s e (nodeOfArrival s a c).1 (ops.foldl (fun f q => f ||| cFlags q.cord) late ||| cFlags c) c
                  ((∃ o, findOpen y (cIdx c) = some o ∧ o.partialOut = some out) ∨ (cIdx c, out) ∈ y.partials)))) ∧
            (∀ (from_ : Option Nat), 7 ≤ cKind c → cordFits s e c = true → from_ = (if eKind e = 7 then
                (entryGroup s e).bind (fun g => dieOfMember g (argNow s e)) else (myDie s).map (fun d => d ^^^ eArg e)) →
              let slot? := (physOf s (cTile c)).bind (fun t => (landFor (leafAt s t) (eIdx e)).map (fun x => (t, x.slot)))
              (from_ ≠ some (cSource c) ∨ landsNow s e (cTile c) = false ∨ slot? = none → exec (.cordArrive i []) s = drop 1) ∧
              (∀ d, from_ = some (cSource c) → landsNow s e (cTile c) = true → slot? = some d →
                (landKey c ∈ s.kiln.landed → exec (.cordArrive i []) s = .next (duplicate c [d] s0)) ∧
                (landKey c ∉ s.kiln.landed →
                  let full := fun (p : PassHold) => eKind e = 7 ∧ mustHold s d = true ∧ p.claim ≤ usedOf s0 (.permit (eIdx e))
                  ((∃ p ∈ s.kiln.passHolds, p.plan = eIdx e ∧ (p.admitted = false ∨ full p)) → exec (.cordArrive i []) s = .next s) ∧
                  ((∀ p ∈ s.kiln.passHolds, p.plan = eIdx e → p.admitted = true ∧ ¬ full p) → ∃ t, exec (.cordArrive i []) s = .next t ∧
                    landKey c ∈ t.kiln.landed ∧ t.step.flags = s.step.flags ||| BitVec.ofNat 16 (cFlags c) ∧
                    smGet (0, 0) t.step.digestCur (eIdx e) = ((smGet (0, 0) s.step.digestCur (eIdx e)).1 + cordDigest c,
                      (smGet (0, 0) s.step.digestCur (eIdx e)).2 + 1) ∧ t.step.state = s.step.state)))))))))

/-- COMBINE_DONE (R84 to R88, R44): with every operand there, a residue mismatch is retried, at most twice; the third retires the kiln
unit, the cord marked RESIDUE and tried anew at another, or fails the die of a segment combiner; a pass makes the node's result, which waits
for the parent's window or has gone up and is kept for a re-send. Before that nothing happens. The residue test of a unit fails its checks
(R458). A scrub of a bank that is not WARM asks for it (R347), else it reads the next slice of a buffer in
service and ends its pass with the last (R204). Of the error words that either meets (R203) a corrected one is counted against its bank, an
uncorrectable one retires its buffer and makes the attempt unclean if it held a cord of the step. -/
def Obligations.NodesCombineTheirOperands : Prop :=
  (∀ (s : State) (plan : BitVec 12) (n : NodeId) (cord : BitVec 16) (x : NodeInst) (e : PlanEntry) (g : GroupDef) (o : OpenCord),
    findNode s plan.toNat n = some x → entryAt s plan.toNat = some e → entryGroup s e = some g → findOpen x cord.toNat = some o →
    let kids := cordChildren s e g n cord.toNat
    let ready := running s = true ∧ o.forwarded = false ∧ o.sent = false ∧ o.partialOut = none ∧ eKind e ≠ 5 ∧ 2 ≤ kids.length ∧
      (∀ k ∈ kids, ∃ q ∈ o.ops, q.child = k) ∧ live s (nodeDom s n cord.toNat) = true
    (∀ ok ecc, exec (.combineDone plan n cord ok ecc) s = exec (.combineDone plan n cord ok []) (eccHits ecc s)) ∧
    (∀ ok, ¬ ready → exec (.combineDone plan n cord ok []) s = .next s) ∧
    (ready → o.attempts < 2 → ∃ t y, exec (.combineDone plan n cord false []) s = .next t ∧
      t = { s with kiln := t.kiln, ctr := t.ctr, free := t.free } ∧
      findNode t plan.toNat n = some y ∧ findOpen y cord.toNat = some { o with attempts := o.attempts + 1 }) ∧
    (ready → 2 ≤ o.attempts → n.stage.val = 0 → s.faults.dieFailed = false → ∃ t, exec (.combineDone plan n cord false []) s = .next t ∧
      t.faults.dieFailed = true ∧ t.faults.cause = 3 ∧ t.step.state = .halted) ∧
    (∀ k, ready → 2 ≤ o.attempts → n.stage.val ≠ 0 → kilnFor s cord.toNat = some k →
      ∃ t y, exec (.combineDone plan n cord false []) s = .next t ∧ t.kiln.unitWorking.getLsbD k = false ∧
        t.step.unclean &&& uResidue = uResidue ∧ findNode t plan.toNat n = some y ∧
        ∃ o', findOpen y cord.toNat = some o' ∧ o'.attempts = 0 ∧ o'.residue = true ∧ o'.ops = o.ops) ∧
    (ready → if residueForced s (nodeUnit s n cord.toNat) = true then
        s.pins.testMode = true ∧ exec (.combineDone plan n cord true []) s = exec (.combineDone plan n cord false []) s
      else ∃ t y, exec (.combineDone plan n cord true []) s = .next t ∧ findNode t plan.toNat n = some y ∧
        ((∃ o', findOpen y cord.toNat = some o' ∧ o'.partialOut = some (combineAt s e n cord.toNat kids o).1) ∨
          (cord.toNat, (combineAt s e n cord.toNat kids o).1) ∈ y.partials))) ∧
  (∀ (s : State) (b : Fin 8),
    let pos := smGet 0 s.kiln.scrubPos b.val
    (s.kiln.bankWorking.getLsbD b.val = false → ∀ ecc, exec (.scrubRead b ecc) s = .next s) ∧
    (s.kiln.bankWorking.getLsbD b.val = true → live s (25 + b.val) = false → ∀ ecc, exec (.scrubRead b ecc) s =
      .next (if clockRuns s (eastDom (25 + b.val)) = true then demand (25 + b.val) s else s)) ∧
    (s.kiln.bankWorking.getLsbD b.val = true → live s (25 + b.val) = true →
      (∀ ecc, scrubFrom s b.val pos = none →
        exec (.scrubRead b ecc) s = .next { s with kiln := { s.kiln with scrubPos := smSet 0 s.kiln.scrubPos b.val 0 } }) ∧
      (∀ ecc p, scrubFrom s b.val pos = some p →
        let s1 := eccHits (ecc.filter (fun h => h.buffer.val == 384 * b.val + p / 64 && h.word.val / 32 == p % 64)) s
        ∃ t, exec (.scrubRead b ecc) s = .next t ∧ t = { s1 with kiln := { s1.kiln with scrubPos := t.kiln.scrubPos }, ctr := t.ctr } ∧
          smGet 0 t.kiln.scrubPos b.val = (scrubFrom s1 b.val (p + 1)).getD 0 ∧
          smGet 0 t.ctr (0x30410 + 0x40 * b.val) = (if scrubFrom s1 b.val (p + 1) = none then
            min (smGet 0 s1.ctr (0x30410 + 0x40 * b.val) + 1) ctrMax else smGet 0 s1.ctr (0x30410 + 0x40 * b.val)))) ∧
    (∀ p q, scrubFrom s b.val q = some p → q ≤ p ∧ p < 24576 ∧ s.kiln.bufRetired.contains (384 * b.val + p / 64) = false ∧
      ∀ r, q ≤ r → r < p → s.kiln.bufRetired.contains (384 * b.val + r / 64) = true)) ∧
  (∀ (s : State) (h : EccHit),
    let x := h.buffer.val
    let b := x / 384
    (s.kiln.bufRetired.contains x = true ∨ s.kiln.bankWorking.getLsbD b = false → eccHit h s = s) ∧
    (s.kiln.bufRetired.contains x = false → s.kiln.bankWorking.getLsbD b = true →
      (h.uncorrectable = false → smGet 0 (eccHit h s).ctr (0x30400 + 0x40 * b) = min (smGet 0 s.ctr (0x30400 + 0x40 * b) + 1) ctrMax ∧
        (eccHit h s).step = s.step) ∧
      (h.uncorrectable = true → smGet 0 (eccHit h s).ctr (0x30408 + 0x40 * b) = min (smGet 0 s.ctr (0x30408 + 0x40 * b) + 1) ctrMax ∧
        (eccHit h s).kiln.bufRetired.contains x = true ∧
        (running s = true → holdsStep s x = true → (eccHit h s).step.unclean &&& uEcc = uEcc))))

/-- Fixed order (R13, R34): what a node makes of a cord index does not depend on the order in which its children's cords came: any
reordering of the operands held gives the same cord, bit for bit. -/
def Obligations.ArrivalOrderDoesNotMatter : Prop :=
  ∀ (s : State) (e : PlanEntry) (n : NodeId) (c : Nat) (kids : List Nat) (o : OpenCord) (ops : List Operand),
    ops.Perm o.ops → (o.ops.map (fun q => q.child)).Nodup →
    combineAt s e n c kids { o with ops := ops } = combineAt s e n c kids o

/-- Finishing and descending (R14, R56, R94, R106, R114, R150, R362, R371, R395, R111). The root's raw cord is finished, its flags joined, its part
taken from the digest; while the finishing stage does not work it waits, outside its step it is dropped. DESCENDING_CORD and MIRROR_ACK discard a
cord for the first reasons of R56, and hold an early one, as CORD_ARRIVE does. A die takes a descending cord that it lands once, a second copy is a
duplicate, one whose CRC fails makes the step unclean, one that fits no node is a mismatch; at a node that is not admitted it waits; a node has
copied it on; a BARRIER goes to the leaves of its segment; the node of this instance that sent a copy has it accepted. An acknowledged MIRROR cord
is no longer waited for; a RESTORE cord that is expected becomes rows to write, after what the leaf has to write, any other is discarded. -/
def Obligations.RootsFinishAndDiesLand : Prop :=
  (∀ (s : State) (i : Nat) (a : Arrival) (raw : Cord), s.inbox[i]? = some a → a.body = .root raw →
    (entryAt s (cPlan raw) = none → exec (.finishCord i) s = .next { s with inbox := s.inbox.eraseIdx i }) ∧
    (∀ (e : PlanEntry) (g : GroupDef), entryAt s (cPlan raw) = some e → entryGroup s e = some g →
      (running s = false ∨ cStep raw ≠ stepNo s → exec (.finishCord i) s = .next { s with inbox := s.inbox.eraseIdx i }) ∧
      (running s = true → cStep raw = stepNo s → live s 58 = false → exec (.finishCord i) s = .next s) ∧
      (running s = true → cStep raw = stepNo s → live s 58 = true →
        let f := (finishedCord s e raw).1
        let m : BitVec 32 := BitVec.ofNat 32 (landersOf e (argNow s e) g (cIdx f))
        ∃ t, exec (.finishCord i) s = .next t ∧ t.step.state = s.step.state ∧ t.step.number = s.step.number ∧
          (1 ≤ g.topLevel → g.topLevel ≤ 4 → t.step.flags = s.step.flags ||| BitVec.ofNat 16 (cFlags f) ∧
            smGet (0, 0) t.step.digestCur (eIdx e) = ((smGet (0, 0) s.step.digestCur (eIdx e)).1 - m * cordDigest f,
              (smGet (0, 0) s.step.digestCur (eIdx e)).2 - m)) ∧
          (nfCounts e = true → nonFinite (cFlags f) = true → (if g.nonfiniteHalt = true then t.step.nfHalt else t.step.nfSkip) = true)))) ∧
  (∀ (s : State) (i : Nat) (a : Arrival) (c : Cord), s.inbox[i]? = some a → a.body = .cord c →
    let s0 := withSome a.buf { s with inbox := s.inbox.eraseIdx i } giveBuf
    let drop := fun (r : Nat) => (discard (cPlan c) (cIdx c) r (kilnCode s (cIdx c)) s0)
    (∀ p ∈ [(Instr.descendingCord i, isDescending a c), (.mirrorAck i, a.vc == 3 && isMirrorAck c)], p.2 = true →
      (drainAhead s a = true → exec p.1 s = .next s) ∧
      (drainAhead s a = false → (isReady s = false → exec p.1 s = .next (drop 5)) ∧
        (isReady s = true → stepMatch s a c = 2 → exec p.1 s = .next (drop 3)) ∧
        (isReady s = true → stepMatch s a c = 1 → exec p.1 s = .next (holdEarly a c s s0)) ∧
        (isReady s = true → stepMatch s a c = 0 → (entryAt s (cPlan c) = none → exec p.1 s = .next (drop 2)) ∧
          (∀ e, entryAt s (cPlan c) = some e → (eOpActive e (cStep c) = false → exec p.1 s = .next (drop 2)) ∧
            (eOpActive e (cStep c) = true → cEpoch c ≠ epochOf s (eGroup e) → exec p.1 s = .next (drop 4)))))) ∧
    (∀ e : PlanEntry, isReady s = true → drainAhead s a = false → a.bad = false → stepMatch s a c = 0 → entryAt s (cPlan c) = some e →
      eOpActive e (cStep c) = true → cEpoch c = epochOf s (eGroup e) →
      (a.vc = 3 → isMirrorAck c = true → (cPlan c, cIdx c, cTile c) ∈ s.step.mirrorOut → exec (.mirrorAck i) s =
        .next { s0 with step := { s.step with mirrorOut := s.step.mirrorOut.erase (cPlan c, cIdx c, cTile c) } }) ∧
      (a.vc = 3 → isMirrorAck c = true → (∀ x ∈ s.step.mirrorOut, ¬ (x.1 = cPlan c ∧ x.2.1 = cIdx c)) →
        exec (.mirrorAck i) s = .next s0) ∧
      (isDescending a c = true →
        let n := nodeBelow s a c
        let accepted := fun (t : State) => match a.src with
          | .self l => if l = 0 ∨ 4 < l then t else copyAccepted (cPlan c) (nodeId l (coordAt l (cTarget c))) (cIdx c) (cTarget c) t
          | _ => t
        (∀ k, a.src = .seg k → exec (.descendingCord i) s = .next (if live s (k + 1) = true then barrierAt e k s0 else s)) ∧
        ((∀ k, a.src ≠ .seg k) →
          (crcOk c = false → exec (.descendingCord i) s = .next (accepted (raiseUnclean uLinkIntegrity
            (logEv 0x060B (kilnCode s (cIdx c)) (argPC (cPlan c) (cIdx c)) (cSource c) s0)))) ∧
          (crcOk c = true → findNode s (cPlan c) n = none → exec (.descendingCord i) s = .next (accepted (drop 1))) ∧
          (∀ (g : GroupDef) (x : NodeInst), crcOk c = true → findNode s (cPlan c) n = some x → entryGroup s e = some g →
            let opens := (x.admitted = true ∨ x.claim = 0) ∧ live s (nodeDom s n (cIdx c)) = true
            (¬ opens → exec (.descendingCord i) s = .next s) ∧
            (opens → cordFits s e c = false ∨ descends s x (cIdx c) = false →
              exec (.descendingCord i) s = .next (accepted (drop 1))) ∧
            (opens → cordFits s e c = true → descends s x (cIdx c) = true →
              (n.stage.val = 1 → landKey c ∈ s.kiln.landed →
                exec (.descendingCord i) s = .next (accepted (duplicate c (landersHere s e (cIdx c)) s0))) ∧
              (n.stage.val ≠ 1 ∨ landKey c ∉ s.kiln.landed → ∃ t y, exec (.descendingCord i) s = .next t ∧
                findNode t (cPlan c) n = some y ∧ cIdx c ∈ y.copied ∧ t.step.state = s.step.state ∧
                (n.stage.val = 1 → dieLandsCord e (argNow s e) g n.coord.toNat (cIdx c) = true → landKey c ∈ t.kiln.landed ∧
                  t.step.flags = s.step.flags ||| BitVec.ofNat 16 (cFlags c) ∧
                  (eKind e ≠ 5 → smGet (0, 0) t.step.digestCur (eIdx e) = ((smGet (0, 0) s.step.digestCur (eIdx e)).1 + cordDigest c,
                    (smGet (0, 0) s.step.digestCur (eIdx e)).2 + 1)))))))))) ∧
  (∀ (s : State) (i : Nat) (a : Arrival) (c : Cord), s.inbox[i]? = some a → a.body = .cord c → a.vc = 3 → cKind c = 10 →
    let s0 := withSome a.buf { s with inbox := s.inbox.eraseIdx i } giveBuf
    (entryAt s (cPlan c) = none → exec (.restore i) s = .next (discard (cPlan c) (cIdx c) 2 unitPE s0)) ∧
    (∀ e : PlanEntry, entryAt s (cPlan c) = some e →
      ((cPlan c, cIdx c, cTile c) ∉ s.faults.restoreDue ∨ cRows c ≠ rowsOfCord e (posNow s e) (cIdx c) →
        exec (.restore i) s = .next (discard (cPlan c) (cIdx c) 3 unitPE s0)) ∧
      (∀ ph base, (cPlan c, cIdx c, cTile c) ∈ s.faults.restoreDue → cRows c = rowsOfCord e (posNow s e) (cIdx c) →
        physOf s (cTile c) = some ph → mirrorStaging s e (cTile c) (cIdx c) = some base →
        let rb := rowBytes (eMl e) (eFmt e)
        let beats := beatsOfRows base rb (rowPitch (eMl e) (eFmt e)) .restoreRow (chunks rb (cRows c) c.payload)
        let w : WriteCtx := { slot := 0, cord := some c, beats := beats, stalled := false, void := false }
        ∃ t, exec (.restore i) s = .next t ∧ t = { s0 with leaves := t.leaves } ∧
          leafAt t ph = nextRecord { leafAt s ph with recQ := (leafAt s ph).recQ ++ [w] })))

/-- Admission, notices, windows and drain markers (R182, R193, R196, R200, R212, R250). The head waiting entry is admitted as soon as its
claims fit and blocks the rest until then; a notice of this attempt is noted at its node, one of a coming attempt waits, an older one is used
up; an arm notice is passed on or arms the leaves; a parent's WINDOW is kept at its children for the placement that sent it; a drain marker
of the present attempt says that what follows on its channel is of the relaunch, one of the attempt abandoned ends the discarding there, and
the step's cords that came on the channel before either are gone; any other marker says nothing. -/
def Obligations.ShortStepsAreAdmittedAndArmed : Prop :=
  (∀ s : State, (running s = false ∨ clockRuns s false = false → exec .admissionRetest s = .next s) ∧
    (∀ p t0 rest, running s = true → clockRuns s false = true → s.kiln.waiting = (p, t0) :: rest →
      (claimAsked s p ≤ freeClaimable s → ∃ t, exec .admissionRetest s = .next t ∧ p ∈ t.kiln.admitted ∧
        t.kiln.waiting.length ≤ rest.length ∧ t.step.state = s.step.state ∧
        (∀ x ∈ t.kiln.nodes, x.plan = p → x.admitted = true) ∧ (∀ x ∈ t.kiln.passHolds, x.plan = p → x.admitted = true)) ∧
      (freeClaimable s < claimAsked s p → ∃ t, exec .admissionRetest s = .next t ∧ t.kiln.waiting = s.kiln.waiting ∧
        t.kiln.admitted = s.kiln.admitted ∧ t.step.state = s.step.state))) ∧
  (∀ (s : State) (i : Nat) (a : Arrival) (m : Msg), s.inbox[i]? = some a → a.body = .mgmt m → mDest m = me s ∨ mDest m = 0xFFFFFF →
    (∀ p ∈ [(Instr.admitNotice i, 3), (.armNotice i, 4)], mType m = p.2 →
      (stepNo s < fieldOf m.m2 16 48 ∨ fieldOf m.m2 16 48 = stepNo s ∧
          (s.step.attempt.toNat < fieldOf m.m2 0 16 ∨ fieldOf m.m2 0 16 = s.step.attempt.toNat ∧ running s = false) →
        exec p.1 s = .next s) ∧
      (fieldOf m.m2 16 48 < stepNo s ∨ fieldOf m.m2 16 48 = stepNo s ∧ fieldOf m.m2 0 16 < s.step.attempt.toNat →
        exec p.1 s = .next { s with inbox := s.inbox.eraseIdx i })) ∧
    (running s = true → fieldOf m.m2 16 48 = stepNo s → fieldOf m.m2 0 16 = s.step.attempt.toNat →
      (∀ x, mType m = 3 → findNode s (fieldOf m.m1 52 12) (noticeNode m) = some x → ∃ t y, exec (.admitNotice i) s = .next t ∧
        findNode t (fieldOf m.m1 52 12) (noticeNode m) = some y ∧ (fieldOf m.m1 16 16, mSrc m) ∈ y.notices ∧
        t.step.state = s.step.state) ∧
      (mType m = 4 → entryAt s (fieldOf m.m1 52 12) = none → exec (.armNotice i) s = .next { s with inbox := s.inbox.eraseIdx i }) ∧
      (∀ e, mType m = 4 → entryAt s (fieldOf m.m1 52 12) = some e → eKind e = 7 → ∃ t, exec (.armNotice i) s = .next t ∧
        fieldOf m.m1 52 12 ∈ t.kiln.armed ∧ t.step.state = s.step.state) ∧
      (∀ e g x, mType m = 4 → entryAt s (fieldOf m.m1 52 12) = some e → eKind e ≠ 7 → entryGroup s e = some g →
        findNode s (fieldOf m.m1 52 12) (noticeNode m) = some x → ∃ t y, exec (.armNotice i) s = .next t ∧
          findNode t (fieldOf m.m1 52 12) (noticeNode m) = some y ∧ y.armSent = true ∧ t.step.state = s.step.state))) ∧
  (∀ (s : State) (i : Nat) (a : Arrival) (m : Msg), s.inbox[i]? = some a → a.body = .ctrl m →
    (mType m = 3 → fieldOf m.m1 16 48 ≠ stepNo s → exec (.window i) s = .next { s with inbox := s.inbox.eraseIdx i }) ∧
    (mType m = 3 → fieldOf m.m1 16 48 = stepNo s → ∃ t, exec (.window i) s = .next t ∧ t.step = s.step ∧
      ∀ x ∈ t.kiln.nodes, x.plan = fieldOf m.m0 36 12 → x.node.stage.val = fieldOf m.m0 48 4 →
        smGet 0 x.parentLowest ((relayFrom m).getD (srcInst s a.src)) = fieldOf m.m0 0 16 + 1) ∧
    (mType m = 2 → channelOf s a = none ∨ fieldOf m.m0 0 48 ≠ stepNo s →
      exec (.drain i) s = .next { s with inbox := s.inbox.eraseIdx i }) ∧
    (∀ p, mType m = 2 → channelOf s a = some p → fieldOf m.m0 0 48 = stepNo s →
      let now := fieldOf m.m1 0 16 = s.step.attempt.toNat
      let starts := now ∧ s.step.drained.contains p = false ∧ (running s = true ∨ s.step.state = .armed)
      let ends := ¬ now ∧ s.step.draining.contains p = true
      let gone := fun (x : Arrival) => channelOf s x == some p && decide (x.seq ≤ a.seq) && (match x.body with
        | .cord c => ofStep (stepNo s) c
        | _ => false)
      (starts → ∃ t, exec (.drain i) s = .next t ∧ t.step = { s.step with drained := s.step.drained ++ [p] } ∧
        (∀ x ∈ t.inbox, gone x = false) ∧ ∀ x ∈ t.kiln.early, gone x.item = false) ∧
      (ends → ∃ t, exec (.drain i) s = .next t ∧ t.step = { s.step with draining := s.step.draining.filter (· != p) } ∧
        (∀ x ∈ t.inbox, gone x = false) ∧ ∀ x ∈ t.kiln.early, gone x.item = false) ∧
      (¬ starts → ¬ ends → exec (.drain i) s = .next { s with inbox := s.inbox.eraseIdx i })))

/-! ### Launch and seal -/

/-- The launch check (R181, R330, R12, R10). A row that its node does not take is discarded; otherwise it joins the node's collection, in a
buffer of the control reserve; complete it goes on as the node's row, at the root to the finishing stage's stop and down. A row on its way down
is copied on. At an instance that feeds there an equal row arms the step, with the timers' history cleared; any other leaves it IDLE, logs the
words that disagree and raises the fault attention line; with no launch pending nothing comes of it. -/
def Obligations.LaunchCheckArmsOrRefuses : Prop :=
  ∀ (s : State) (i : Nat) (a : Arrival) (c : Cord), s.inbox[i]? = some a → a.body = .cord c → cKind c = 9 → cIdx c = 2 →
    let s0 := withSome a.buf { s with inbox := s.inbox.eraseIdx i } giveBuf
    let refused := fun (r : Nat) => (Host.Outcome.next (discard 0 2 r unitPE s0) : Host.Outcome State Fault Refusal)
    (∀ p ∈ [(Instr.launchCheck i, 0), (.launchCheckResult i, 1)], a.vc = p.2 →
      (isReady s = false → exec p.1 s = refused 5) ∧
      (isReady s = true → groupNow s (sealGroup s) = none → exec p.1 s = refused 1)) ∧
    (∀ g : GroupDef, isReady s = true → groupNow s (sealGroup s) = some g →
      (a.vc = 0 →
        let n := sealNodeOf s0 a c
        let keys := sealKeys s0 g n.1 n.2
        let col := sealCol s0 (nodeId n.1 n.2) 2
        let k := sealKeyOf s0 g a c (col.rows.map Prod.fst)
        let rows := col.rows ++ [(k, rowOfBytes c.payload)]
        let takes := sealComputes s0 g n.1 n.2 2 = true ∧ k ∈ keys ∧ ∀ r ∈ col.rows, r.1 ≠ k
        let row := combineRowList false (keys.filterMap (fun j => (rows.find? (fun r => r.1 == j)).map Prod.snd))
        let full := ∀ j ∈ keys, ∃ r ∈ rows, r.1 = j
        (¬ takes → exec (.launchCheck i) s = refused 1) ∧
        (takes → ¬ full → ∃ t, exec (.launchCheck i) s = .next t ∧ (sealCol t (nodeId n.1 n.2) 2).rows = rows ∧
          t = { s0 with kiln := t.kiln, step := { s.step with cols := t.step.cols } } ∧
          (∀ b, a.buf.elim (pickBuf s0 2) some = some b → t.kiln = { s0.kiln with used := smPut s0.kiln.used b .control })) ∧
        (takes → full →
          let t := closeCol col [] s0
          (sealCol t (nodeId n.1 n.2) 2).rows = [] ∧ t = { s0 with kiln := t.kiln, step := { s.step with cols := t.step.cols } } ∧
          (∀ b ∈ col.bufs, ∀ p ∈ t.kiln.used, p.1 ≠ b) ∧
          exec (.launchCheck i) s = .next (if sealRootAt g n.1 n.2 = true then
            toStops (kilnCode s0 2) [unitFS] 1 { src := .self (n.1 + 1), vc := 1, body := .cord (mkSealCord s0 2 n.1 n.2 n.2 row) } [] t
          else sealTo (kilnCode s0 2) g (n.1 + 1) (coordAt (n.1 + 1) n.2) 2 n.1 n.2 row t))) ∧
      (a.vc = 1 →
        let n := sealBelow s0 g a c
        let s1 := if sealComputes s0 g n.1 n.2 2 = true then copySeal g n.1 n.2 c s0 else s0
        let due := feedNode s1 g (me s1) = some n ∧ s.step.state = .idle ∧ s.time.launchPending = true ∧ s.step.checkFed = true
        (¬ due → exec (.launchCheckResult i) s = .next s1) ∧
        (due → checkBad (rowOfBytes c.payload) = 0 → ∃ t, exec (.launchCheckResult i) s = .next t ∧ t.step.state = .armed ∧
          t.step.launch = s.step.launch ∧ t.step.number = s.step.number ∧ t.step.attempt = s.step.attempt ∧ t.step.firstOut = true ∧
          t.step.checkFed = false ∧ t.kindle.durations = [] ∧ t.kindle.skews = [] ∧ t.faults.role ≠ .restoring) ∧
        (due → checkBad (rowOfBytes c.payload) ≠ 0 → ∃ t, exec (.launchCheckResult i) s = .next t ∧ t.step.state = .idle ∧
          t.step.checkFed = false ∧ t.time.launchPending = false ∧ t.faults.pending.getLsbD 7 = true ∧ t.image = s.image ∧
          logged s t 0x0304 0x50 (checkBad (rowOfBytes c.payload)) 0)))

/-- The seal (R10, R190, R359, R365 to R369, R377, R384). A contribution or early request of another step or attempt is discarded, one of a coming
attempt waits in a buffer of the control reserve, one of an old epoch is discarded. A contribution joins its node's collection; complete it goes on,
at the root to the finishing stage's stop, where it decides; an early request goes up uncombined and decides at once at the root, its UNCLEAN and
CONTROL bits joined to what is decided; after the broadcast it is discarded. The decision is broadcast unless a hold is open. The broadcast is
copied on, and ends the attempt at an instance that feeds there: SEALED and SKIP advance the step number, REPLAY raises ATTEMPT, HALT halts; one of
another step or attempt is a protocol error. The outcome is HALT by EXHAUST_HALT; else a REPLAY of an unclean attempt, its eighth unclean run a
HALT; else HALT or SKIP by the non-finite policy; else SEALED. -/
def Obligations.SealDecidesTheAttempt : Prop :=
  (∀ (s : State) (i : Nat) (a : Arrival) (c : Cord), s.inbox[i]? = some a → a.body = .cord c → cKind c = 9 →
    let s0 := withSome a.buf { s with inbox := s.inbox.eraseIdx i } giveBuf
    let r := rowOfBytes c.payload
    (∀ p ∈ [(Instr.sealContribution i, 0, 0), (.earlyRequest i, 1, 0), (.sealBroadcastReceive i, 0, 1)], cIdx c = p.2.1 → a.vc = p.2.2 →
      (isReady s = false → exec p.1 s = .next (discard 0 p.2.1 5 unitPE s0)) ∧
      (isReady s = true → groupNow s (sealGroup s) = none → exec p.1 s = .next (discard 0 p.2.1 1 unitPE s0)) ∧
      (isReady s = true → (groupNow s (sealGroup s)).isSome = true → a.vc = 0 →
        (sealMatch s c = 1 →
          (128 ≤ usedBut s .control (a.buf.getD noBuf) → exec p.1 s = .next s) ∧
          (∀ b, usedBut s .control (a.buf.getD noBuf) < 128 → a.buf.elim (pickBuf s (cIdx c)) some = some b → ∃ t, exec p.1 s = .next t ∧
            t = { s with inbox := s.inbox.set i { a with buf := some b }, kiln := { s.kiln with used := smPut s.kiln.used b .control } })) ∧
        (sealMatch s c = 2 → exec p.1 s = .next (discard 0 p.2.1 3 unitPE s0)) ∧
        (sealMatch s c = 3 → exec p.1 s = .next (discard 0 p.2.1 4 unitPE s0)))) ∧
    (∀ g : GroupDef, isReady s = true → groupNow s (sealGroup s) = some g →
      (a.vc = 0 → sealMatch s c = 0 → a.bad = false →
        let n := sealNodeOf s0 a c
        let keys := sealKeys s0 g n.1 n.2
        let col := sealCol s0 (nodeId n.1 n.2) 0
        let k := sealKeyOf s0 g a c (col.rows.map Prod.fst)
        let rows := col.rows ++ [(k, r)]
        let atStop := a.src = .self (g.topLevel + 1)
        let takes := ¬ atStop ∧ sealComputes s0 g n.1 n.2 0 = true ∧ k ∈ keys ∧ col.sent = false ∧ ∀ x ∈ col.rows, x.1 ≠ k
        let row := combineRowList true (keys.filterMap (fun j => (rows.find? (fun x => x.1 == j)).map Prod.snd))
        let full := ∀ j ∈ keys, ∃ x ∈ rows, x.1 = j
        let down := fun (early : Bool) (d : Row) => mkSealCord s 0 g.topLevel (rootCoord g) (rootCoord g) (broadcastRow s d early)
        let decides := fun (early : Bool) (d : Row) (t : State) => t.step.decided = some (d, early) ∧
          t.step.broadcast = s.faults.holds.isEmpty ∧
          t.inbox = s.inbox.eraseIdx i ++
            (if s.faults.holds = [] then [{ src := .self (g.topLevel + 1), vc := 1, body := .cord (down early d) }] else []) ∧
          t = { s with inbox := t.inbox, kiln := t.kiln, step := t.step } ∧
          t.step = { s.step with cols := t.step.cols, decided := t.step.decided, broadcast := t.step.broadcast }
        (cIdx c = 0 → (¬ atStop → ¬ takes → exec (.sealContribution i) s = .next (discard 0 0 1 unitPE s0)) ∧
          (takes → ¬ full → ∃ t, exec (.sealContribution i) s = .next t ∧ (sealCol t (nodeId n.1 n.2) 0).rows = rows ∧
            t = { s0 with kiln := t.kiln, step := { s.step with cols := t.step.cols } }) ∧
          (takes → full → sealRootAt g n.1 n.2 = false →
            let t := closeCol col rows s0
            (sealCol t (nodeId n.1 n.2) 0).sent = true ∧ t = { s0 with kiln := t.kiln, step := { s.step with cols := t.step.cols } } ∧
            exec (.sealContribution i) s = .next (sealTo (kilnCode s0 0) g (n.1 + 1) (coordAt (n.1 + 1) n.2) 0 n.1 n.2 row t)) ∧
          (takes → full → sealRootAt g n.1 n.2 = true → exec (.sealContribution i) s = .next (toStops (kilnCode s0 0) [unitFS] 0
            { src := .self (n.1 + 1), vc := 0, body := .cord (mkSealCord s0 0 n.1 n.2 n.2 row) } [] (closeCol col rows s0))) ∧
          (atStop → s.step.decided = none → s.step.broadcast = false →
            ∃ t, exec (.sealContribution i) s = .next t ∧ decides false r t)) ∧
        (cIdx c = 1 →
          let takes1 := sealComputes s0 g n.1 n.2 1 = true ∧ sealKeyOf s0 g a c [] ∈ keys
          (¬ takes1 → exec (.earlyRequest i) s = .next (discard 0 1 1 unitPE s0)) ∧
          (takes1 → sealRootAt g n.1 n.2 = false → exec (.earlyRequest i) s =
            .next (sealTo unitFS g (n.1 + 1) (coordAt (n.1 + 1) n.2) 1 n.1 n.2 r s0)) ∧
          (takes1 → sealRootAt g n.1 n.2 = true → s.step.broadcast = true →
            exec (.earlyRequest i) s = .next (discard 0 1 3 unitPE s0)) ∧
          (takes1 → sealRootAt g n.1 n.2 = true → s.step.broadcast = false →
            (s.step.decided = none → ∃ t, exec (.earlyRequest i) s = .next t ∧ decides true r t) ∧
            (∀ d e0, s.step.decided = some (d, e0) → ∃ t, exec (.earlyRequest i) s = .next t ∧
              decides e0 (d.mapIdx (fun j v => if j = 8 ∨ j = 10 then v ||| lane r j else v)) t)))) ∧
      (a.vc = 1 → cIdx c = 0 →
        let n := sealBelow s0 g a c
        let s1 := if sealComputes s0 g n.1 n.2 0 = true then copySeal g n.1 n.2 c s0 else s0
        let here := feedNode s0 g (me s0) = some n
        let mine := cStep c = stepNo s ∧ awaitsSeal s = true ∧ (s.faults.role = .restoring ∨ lane r 5 = s.step.attempt.setWidth 32)
        let o := (lane r 0).toNat / 2 ^ 28
        let stops := s.step.number + 1 = 0xFFFFFFFFFFFF ∨ (lane r 0).getLsbD 27 = true
        (¬ here → exec (.sealBroadcastReceive i) s = .next s1) ∧
        (here → ¬ mine → exec (.sealBroadcastReceive i) s = .next (protocolError 0 0 4 unitPE (discard 0 0 3 unitPE s1))) ∧
        (here → mine → ∃ t, exec (.sealBroadcastReceive i) s = .next t ∧ t.step.lastOutcome = BitVec.ofNat 4 o ∧
          t.step.lastUnclean = lane r 6 ∧ t.step.lastFlags = BitVec.ofNat 16 (lane r 7).toNat ∧ t.step.decided = none ∧
          t.step.broadcast = false ∧ t.step.openW = false ∧ t.step.openE = false ∧ t.step.unclean = 0 ∧
          (o ≤ 1 → t.step.number = s.step.number + 1 ∧ t.step.attempt = 0 ∧ t.step.stopPending = (if stops then false else s.step.stopPending) ∧
            t.step.state = (if t.faults.dieFailed = true then .halted else if stops then .idle else .armed)) ∧
          (o = 2 → t.step.number = s.step.number ∧ t.step.attempt = satOf 16 ((lane r 5).toNat % 65536 + 1) ∧
            t.step.state = (if t.faults.dieFailed = true then .halted else .armed) ∧ t.step.nReplayed = satAdd s.step.nReplayed 1) ∧
          (3 ≤ o → t.step.number = s.step.number ∧ t.step.state = .halted))))) ∧
  (∀ (r : Row) (early : Bool) (n : Nat),
    let unclean := lane r 8 ||| rootReasons r early
    ((lane r 10).getLsbD 2 = true → outcomeOf r early n = 3) ∧
    ((lane r 10).getLsbD 2 = false → unclean ≠ 0 → n < 7 → outcomeOf r early n = 2) ∧
    ((lane r 10).getLsbD 2 = false → unclean ≠ 0 → 7 ≤ n → outcomeOf r early n = 3) ∧
    ((lane r 10).getLsbD 2 = false → unclean = 0 → (lane r 10).getLsbD 1 = true → outcomeOf r early n = 3) ∧
    ((lane r 10).getLsbD 2 = false → unclean = 0 → (lane r 10).getLsbD 1 = false → (lane r 10).getLsbD 0 = true →
      outcomeOf r early n = 1) ∧
    ((lane r 10).getLsbD 2 = false → unclean = 0 → (lane r 10).getLsbD 1 = false → (lane r 10).getLsbD 0 = false →
      outcomeOf r early n = 0) ∧
    (early = true → rootReasons r early = 0) ∧
    (early = false → (lane r 17 ≠ lane r 20 ∨ lane r 24 ≠ 0 ∨ lane r 25 ≠ 0) → rootReasons r early ≠ 0))

/-! ### Failures -/

/-- Changes are applied in CHANGE_SEQ order (R381): a copy of one applied already, or held, is used up; one that is ahead of its turn is
passed on and held back; the next one is applied, and one held back for the turn that follows is given to the inbox. What each kind then changes:
ENTRY_FAILED the working list (R44), HEARTH_SUCCESSION the root of its group (R45), STANDIN_OFFER the offers (R393), STANDIN_COMMIT the
membership record and the epochs (R382, R394), REFORM the member lists and the epochs (R399), HOLD_OPEN and HOLD_CLOSED the timers (R385),
FIREBREAK the fault attention line and, for a tile or a die, the epochs (R405). -/
def Obligations.ChangesAreAppliedInSequence : Prop :=
  ∀ (s : State) (i : Nat) (a : Arrival) (m : Msg), s.inbox[i]? = some a → a.body = .mgmt m → mDest m = me s ∨ mDest m = 0xFFFFFF →
    (∀ p ∈ [(Instr.entryFailed i, 2, 1), (.hearthSuccession i, 2, 2), (.standinOffer i, 2, 4), (.standinCommit i, 2, 7), (.reform i, 2, 8),
        (.holdOpen i, 2, 0xC), (.holdClosed i, 2, 0xD), (.firebreak i, 5, 2)], mType m = p.2.1 → pcKind m = p.2.2 → pcSeq m ≠ 0 →
      (pcSeq m ≤ s.faults.changeSeq.toNat ∨ (∃ x ∈ s.faults.heldBack, pcSeq x = pcSeq m) →
        exec p.1 s = .next { s with inbox := s.inbox.eraseIdx i }) ∧
      (s.faults.changeSeq.toNat + 1 < pcSeq m → (∀ x ∈ s.faults.heldBack, pcSeq x ≠ pcSeq m) → ∃ t, exec p.1 s = .next t ∧
        t = { s with inbox := s.inbox.eraseIdx i, links := t.links, fabric := t.fabric, faults := t.faults } ∧
        t.faults = { s.faults with heldBack := s.faults.heldBack ++ [m], lastSeq := BitVec.ofNat 32 (max s.faults.lastSeq.toNat (pcSeq m)) }) ∧
      (pcSeq m = s.faults.changeSeq.toNat + 1 → (∀ x ∈ s.faults.heldBack, pcSeq x ≠ pcSeq m) → ∃ t, exec p.1 s = .next t ∧
        t.params = s.params ∧ t.pending = s.pending ∧ pcSeq m ≤ t.faults.changeSeq.toNat ∧
        ((∃ x ∈ s.faults.heldBack, pcSeq x = pcSeq m + 1) → t.faults.changeSeq.toNat = pcSeq m →
          (∀ x ∈ t.faults.heldBack, pcSeq x ≠ pcSeq m + 1) ∧ ∃ b ∈ t.inbox, b.src = .self 0 ∧ b.vc = 4 ∧ (match b.body with
            | .mgmt y => pcSeq y == pcSeq m + 1
            | _ => false) = true))) ∧
    (pcSeq m = s.faults.changeSeq.toNat + 1 → (∀ x ∈ s.faults.heldBack, pcSeq x ≠ pcSeq m) →
      let epochsGoOn := fun (t : State) => t.tables.epochs = advance (groupsHolding s (pcDie m)) s.tables.epochs
      (∀ g, mType m = 2 → pcKind m = 1 → groupNow s (pcGroup m) = some g → ∃ t, exec (.entryFailed i) s = .next t ∧
        pcOld m ∉ placesOf t g.num (pcLevel m) (pcNode m) ∧
        ∀ l c, (l, c) ≠ (pcLevel m, pcNode m) → placesOf t g.num l c = placesOf s g.num l c) ∧
      (∀ g, mType m = 2 → pcKind m = 2 → groupNow s (pcGroup m) = some g → rootInst s g.num = pcOld m →
        ∃ t, exec (.hearthSuccession i) s = .next t ∧ rootInst t g.num = pcNew m) ∧
      (∀ g, mType m = 2 → pcKind m = 2 → groupNow s (pcGroup m) = some g → rootInst s g.num ≠ pcOld m →
        ∃ t, exec (.hearthSuccession i) s = .next t ∧ t.kiln = s.kiln ∧ t.step = s.step) ∧
      (mType m = 2 → pcKind m = 4 → ∃ t, exec (.standinOffer i) s = .next t ∧
        ∃ o ∈ t.faults.offers, o.die = pcDie m ∧ o.cand = some (BitVec.ofNat 24 (pcNew m)) ∧ o.since = s.time.tick.toNat) ∧
      (mType m = 2 → pcKind m = 7 → ∃ t, exec (.standinCommit i) s = .next t ∧ holderOf t (pcDie m) = pcNew m ∧ epochsGoOn t ∧
        t.faults.pending.getLsbD 2 = true ∧ pcDie m ∈ t.faults.restoring ∧
        (pcNew m = me s → s.faults.dieFailed = false → t.faults.myDie = some (pcDie m) ∧ t.faults.role = .restoring ∧
            t.faults.hold = some .standin)) ∧
      (mType m = 2 → pcKind m = 8 → ∃ t, exec (.reform i) s = .next t ∧ fieldOf (memberWord t (pcDie m)) 62 2 = 2 ∧ epochsGoOn t ∧
        (∀ g ∈ t.kiln.groups, memberIdx g (pcDie m) = none) ∧ t.faults.pending.getLsbD 4 = true) ∧
      (mType m = 2 → pcKind m = 0xC → ∃ t, exec (.holdOpen i) s = .next t ∧ t.faults.paused = true ∧ t.step = s.step ∧ t.kiln = s.kiln) ∧
      (mType m = 2 → pcKind m = 0xD → ∃ t, exec (.holdClosed i) s = .next t ∧ t.faults.paused = false ∧
        t.faults.pausedTicks = pausedTotal s ∧ t.step = s.step ∧ t.kiln = s.kiln) ∧
      (mType m = 5 → pcKind m = 2 → ∃ t, exec (.firebreak i) s = .next t ∧ t.faults.pending.getLsbD 3 = true ∧
        (fbClass m ≤ 1 → epochsGoOn t) ∧
        (fbClass m = 1 → s.faults.myDie = some (pcDie m) → fbInst m = me s → t.faults.dieFailed = true ∧
          (s.faults.dieFailed = false → t.faults.cause = 7)) ∧
        (∀ g, 2 ≤ fbClass m → groupNow s (pcGroup m) = some g → ∀ p ∈ t.kiln.places, p.group = g.num → p.level + 1 = fbLevel m →
          fbInst m ∉ p.entries)))

/-- The coordinator's part (R45, R379, R383, R384, R386, R391 to R394, R397). What is sent toward it a failed die drops and any other instance
passes on, to the successor of a coordinator that is lost. It floods a failed entry and a succession that are asked of it; notes a hold, closes a
released one, times one out with EXHAUST_HALT, and closes its RE-FORM hold for the host; HOLD_ACK lets the early request of a die that spliced go; a
failed die's index is offered to the pool under a hold of its own, or with no entry left exhaustion applies; a decline or a silent candidate passes
it to the next; an accept commits it, but not to a candidate that has failed since. -/
def Obligations.CoordinatorRunsHoldsAndStandIns : Prop :=
  (∀ (s : State) (i : Nat) (a : Arrival) (m : Msg), s.inbox[i]? = some a → a.body = .mgmt m → mDest m = me s →
    let s0 := { s with inbox := s.inbox.eraseIdx i }
    let calm := (∀ x ∈ s.faults.heldBack, pcSeq x ≠ s.faults.changeSeq.toNat + 1) ∧ s.faults.lastSeq = s.faults.changeSeq ∧
        s.faults.changeSeq.toNat + 1 < 2 ^ 32
    (∀ p ∈ [(Instr.dieFailed i, 2, 3), (.standinAccept i, 2, 5), (.standinDecline i, 2, 6), (.hold i, 2, 9), (.holdRelease i, 2, 0xB),
        (.stallReport i, 5, 1), (.entryFailed i, 2, 1), (.hearthSuccession i, 2, 2)], mType m = p.2.1 → pcKind m = p.2.2 →
      (mType m = 2 → pcKind m ≤ 2 → pcSeq m = 0) → (mType m = 2 → pcKind m = 2 → pcGroup m ≠ sealGroup s) →
      (s.faults.dieFailed = true → exec p.1 s = .next s0) ∧
      (s.faults.dieFailed = false → isCoordinator s = false →
        (coordLost m s = false → exec p.1 s = .next (route (coordinator s) { m with m0 := setField m.m0 8 24 (coordinator s) } s0)) ∧
        (coordLost m s = true → successor s ≠ me s →
          exec p.1 s = .next (route (successor s) { m with m0 := setField m.m0 8 24 (successor s) } s0)))) ∧
    (mType m = 2 → s.faults.dieFailed = false → calm → pcSeq m = 0 →
      (isCoordinator s = true → pcKind m = 1 → ∃ t, exec (.entryFailed i) s = .next t ∧
        (∀ g, groupNow s (pcGroup m) = some g → pcGroup m = g.num → pcOld m ∉ placesOf t g.num (pcLevel m) (pcNode m)) ∧
        (listed s (pcGroup m) (pcLevel m) (pcNode m) (pcOld m) = false → t = s0)) ∧
      (∀ g, isCoordinator s = true ∨ pcGroup m = sealGroup s → pcKind m = 2 → groupNow s (pcGroup m) = some g →
        (rootInst s g.num ≠ pcOld m → exec (.hearthSuccession i) s = .next s0) ∧
        (rootInst s g.num = pcOld m → groupNow s g.num = some g →
          let asked := pcNew m ≠ 0xFFFFFF ∧ knownWorking s0 (pcNew m) = true
          (asked → ∃ t, exec (.hearthSuccession i) s = .next t ∧ rootInst t g.num = pcNew m) ∧
          (∀ nb, ¬ asked → nextStandby s g = some nb → nb < 2 ^ 24 → ∃ t, exec (.hearthSuccession i) s = .next t ∧
            rootInst t g.num = nb) ∧
          (¬ asked → nextStandby s g = none → g.exhaustHalt = true → ∃ t, exec (.hearthSuccession i) s = .next t ∧
            t.step.exhaustHalt = true ∧ rootInst t g.num = pcOld m)))) ∧
    (mType m = 2 → isCoordinator s = true → s.faults.dieFailed = false →
      (pcKind m = 9 → mSrc m ≠ 0xFFFFFF → ∃ t, exec (.hold i) s = .next t ∧ ∃ h ∈ t.faults.holds, h.die = pcDie m ∧ h.inst = mSrc m ∧
          (h.kind = .splice ∨ h.kind = .standin)) ∧
      (pcKind m = 0xB → ∃ t, exec (.holdRelease i) s = .next t ∧
        ∀ h ∈ t.faults.holds, h.inst = mSrc m → h.kind ≠ .splice ∧ h.kind ≠ .standin) ∧
      (pcKind m = 3 → pcNoIndex m = true → dieOfInst s (pcOld m) = none → (∀ p ∈ s.kiln.places, pcOld m ∉ p.entries) → ∃ t,
          exec (.dieFailed i) s = .next t ∧
        t = { s0 with faults := { s.faults with pending := s.faults.pending ||| 1, gone := t.faults.gone } }) ∧
      (pcKind m = 3 → pcNoIndex m = false →
        (fieldOf (memberWord s (pcDie m)) 62 2 ≠ 1 ∨ holderOf s (pcDie m) ≠ pcOld m → exec (.dieFailed i) s = .next s0) ∧
        (fieldOf (memberWord s (pcDie m)) 62 2 = 1 → holderOf s (pcDie m) = pcOld m → s.faults.offers = [] →
          (∀ p ∈ s.kiln.places, pcOld m ∉ p.entries) →
          (∀ k inst, nextPool s (pcDie m) 0 = some (k, inst) → ∃ t, exec (.dieFailed i) s = .next t ∧ t.faults.pending.getLsbD 0 = true ∧
            (∃ h ∈ t.faults.holds, h.die = pcDie m ∧ h.kind = .own) ∧
            ∃ o ∈ t.faults.offers, o.die = pcDie m ∧ o.next = k + 1 ∧ o.cand = some (BitVec.ofNat 24 inst)) ∧
          (nextPool s (pcDie m) 0 = none → (∃ g ∈ groupsHolding s (pcDie m), g.exhaustHalt = true) → ∃ t,
            exec (.dieFailed i) s = .next t ∧ t.step.exhaustHalt = true ∧ (∀ o ∈ t.faults.offers, o.die ≠ pcDie m) ∧
            ∀ h ∈ t.faults.holds, h.die = pcDie m → h.kind ≠ .own))) ∧
      (∀ o, (pcKind m = 5 ∨ pcKind m = 6) → s.faults.offers.find? (fun x => x.die == pcDie m) = some o →
        (o.cand ≠ some (BitVec.ofNat 24 (pcNew m)) ∨ pcDie m ∈ s.faults.restoring →
          (pcKind m = 5 → exec (.standinAccept i) s = .next s0) ∧ (pcKind m = 6 → exec (.standinDecline i) s = .next s0)) ∧
        (pcKind m = 5 → pcNew m ∈ s.faults.gone → exec (.standinAccept i) s = .next s0) ∧
        (pcKind m = 5 → pcDie m ∉ s.faults.restoring → o.cand = some (BitVec.ofNat 24 (pcNew m)) → pcNew m ∉ s.faults.gone → calm →
          ∃ t, exec (.standinAccept i) s = .next t ∧ holderOf t (pcDie m) = pcNew m) ∧
        (∀ k inst, pcKind m = 6 → pcDie m ∉ s.faults.restoring → o.cand = some (BitVec.ofNat 24 (pcNew m)) →
          nextPool s (pcDie m) o.next = some (k, inst) → ∃ t, exec (.standinDecline i) s = .next t ∧
            ∃ o' ∈ t.faults.offers, o'.die = pcDie m ∧ o'.next = k + 1 ∧ o'.cand = some (BitVec.ofNat 24 inst))) ∧
      ((∀ o ∈ s.faults.offers, o.die ≠ pcDie m) → (pcKind m = 5 → exec (.standinAccept i) s = .next s0) ∧
        (pcKind m = 6 → exec (.standinDecline i) s = .next s0))) ∧
    (mType m = 2 → pcKind m = 0xA →
      (s.faults.awaitAck = false → exec (.holdAck i) s = .next s0) ∧
      (s.faults.awaitAck = true → ∃ t, exec (.holdAck i) s = .next t ∧ t.faults = { s.faults with awaitAck := false } ∧
        (running s = true → s.step.unclean &&& uSplice ≠ 0 → t.step.earlySent = true ∧ t.step.nEarly = satAdd s.step.nEarly 1) ∧
        (running s = false ∨ s.step.unclean &&& uSplice = 0 → t.step = s.step)))) ∧
  (∀ (s : State) (d : BitVec 16),
    (isCoordinator s = false ∨ s.faults.dieFailed = true → exec .offerTimeout s = .next s ∧ exec (.recoveryTimeout d) s = .next s) ∧
    (openOffer s = none → exec .offerTimeout s = .next s) ∧
    (∀ o k inst, isCoordinator s = true → s.faults.dieFailed = false → openOffer s = some o →
      s.faults.offers.find? (fun x => x.die == o.die) = some o → nextPool s o.die o.next = some (k, inst) →
      ∃ t, exec .offerTimeout s = .next t ∧
        ∃ o' ∈ t.faults.offers, o'.die = o.die ∧ o'.next = k + 1 ∧ o'.cand = some (BitVec.ofNat 24 inst)) ∧
    ((∀ h ∈ s.faults.holds, h.die = d.toNat →
        s.time.tick.toNat < h.since + s.faults.recoveryLimit.toNat * 100000000) → exec (.recoveryTimeout d) s = .next s) ∧
    (∀ h : HoldRec, isCoordinator s = true → s.faults.dieFailed = false →
      s.faults.holds.find? (fun x => x.die == d.toNat && decide (x.since + s.faults.recoveryLimit.toNat * 100000000 ≤ s.time.tick.toNat)) =
        some h → ∃ t, exec (.recoveryTimeout d) s = .next t ∧
        (∀ x ∈ t.faults.holds, x.die = d.toNat → x.kind ≠ h.kind) ∧ t.faults.pending.getLsbD 6 = true ∧ t.step.exhaustHalt = true) ∧
    (∀ v : Word, portLive s = true → v.extractLsb' 61 3 = 4 → ∃ t, exec (.recoveryDone v) s = .next t ∧
      (∀ h ∈ t.faults.holds, h.kind ≠ .reform) ∧
      t.faults.recoveryLimit = (if fieldOf v 35 16 = 0 then 60 else BitVec.ofNat 16 (fieldOf v 35 16)) ∧
      (s.faults.hold = some .splice → t.faults.hold = none)))

/-- The skew and smoulder timers (R402 to R405). A cord that waits past its threshold marks its node LATE and warns once; each item that has made no
progress for its warning time warns once, and at its bound sends a STALL_REPORT to the coordinator; without such a wait, and while the timers pause,
neither happens. The coordinator collects reports of the running attempt, and after 100,000 ticks the collection ends with a FIREBREAK for the
report that it chooses. -/
def Obligations.TimersWarnAndReport : Prop :=
  (∀ (s : State) (plan : BitVec 12) (n : NodeId) (cord : BitVec 16),
    (running s = false ∨ s.faults.paused = true ∨ findNode s plan.toNat n = none → exec (.skewWarning plan n cord) s = .next s) ∧
    (∀ x e g, findNode s plan.toNat n = some x → entryAt s plan.toNat = some e → entryGroup s e = some g →
      (findOpen x cord.toNat = none → exec (.skewWarning plan n cord) s = .next s) ∧
      (∀ o, findOpen x cord.toNat = some o →
        let waits := running s = true ∧ o.ops ≠ [] ∧ o.ops.length < (cordChildren s e g n cord.toNat).length ∧ s.faults.paused = false ∧
          skewThreshold s g (nodeLevel n) < skewWait s o
        (¬ waits → exec (.skewWarning plan n cord) s = .next s) ∧
        (waits → ∃ t y, exec (.skewWarning plan n cord) s = .next t ∧
          findNode t plan.toNat n = some y ∧ findOpen y cord.toNat = some { o with late := true } ∧ y.skewWarned = true ∧
          t.step = s.step ∧ (x.skewWarned = true → t = { s with kiln := t.kiln }) ∧
          (x.skewWarned = false → smGet 0 t.ctr 0x428 = min (smGet 0 s.ctr 0x428 + 1) ctrMax))))) ∧
  (∀ (s : State) (plan : BitVec 12) (cord : BitVec 16) (cls : Fin 6),
    let due := toWarn s plan.toNat cord.toNat cls.val
    (∀ e g x, entryAt s plan.toNat = some e → entryGroup s e = some g → (x ∈ due ↔ running s = true ∧ s.faults.paused = false ∧
      s.faults.dieFailed = false ∧ x ∈ stallTimers s plan.toNat cord.toNat cls.val ∧ smoulderTime s g ≤ stillFor s x.start x.key ∧
      (plan.toNat, cord.toNat, cls.val, x.key) ∉ s.faults.warned)) ∧
    (due = [] → exec (.smoulderWarning plan cord cls) s = .next s) ∧
    (∀ x xs, due = x :: xs → ∃ t, exec (.smoulderWarning plan cord cls) s = .next t ∧
        t.faults = { s.faults with warned := s.faults.warned ++ [(plan.toNat, cord.toNat, cls.val, x.key)] } ∧
        smGet 0 t.ctr 0x430 = min (smGet 0 s.ctr 0x430 + 1) ctrMax ∧ t.step = s.step ∧ t.kiln = s.kiln)) ∧
  (∀ (s : State) (plan : BitVec 12) (cord culprit : BitVec 16) (cls : Fin 6) (tile : BitVec 10) (inst : BitVec 24) (level : Fin 5),
    let item : StallItem := { die := culprit.toNat, tile := tile.toNat, inst := inst.toNat, level := level.val }
    let atBound := (smoulders s plan.toNat cord.toNat cls.val (fun x => x.boundMs * 100000)).map (fun t => t.item)
    (item ∉ atBound →
      exec (.smoulderBound plan cord cls culprit tile inst level) s = .next s) ∧
    (∀ (e : PlanEntry) (g : GroupDef), item ∈ atBound → entryAt s plan.toNat = some e → entryGroup s e = some g →
      let m := mkFirebreak s (coordinator s) 1 g.num 0 culprit.toNat tile.toNat (culpritClass cls.val level.val) level.val plan.toNat
        cord.toNat inst.toNat 0 g.boundMs 0
      exec (.smoulderBound plan cord cls culprit tile inst level) s =
        .next (route (coordinator s) m (logEv 0x0809 0x50 (argPC plan.toNat cord.toNat) g.boundMs s)) ∧
      mType m = 5 ∧ pcKind m = 1 ∧ mSrc m = me s ∧ pcDie m = culprit.toNat ∧ fbTile m = tile.toNat ∧ fbInst m = inst.toNat ∧
      fbLevel m = level.val ∧ fbPlan m = plan.toNat ∧ fbCord m = cord.toNat)) ∧
  (∀ (s : State) (i : Nat) (a : Arrival) (m : Msg), s.inbox[i]? = some a → a.body = .mgmt m → mDest m = me s → mType m = 5 →
    pcKind m = 1 → isCoordinator s = true → s.faults.dieFailed = false →
    (m.m2 ≠ stepContext s ∨ running s = false ∨ firebroken s = true ∨ culpritGone m s = true →
      exec (.stallReport i) s = .next { s with inbox := s.inbox.eraseIdx i }) ∧
    (m.m2 = stepContext s → running s = true → firebroken s = false → culpritGone m s = false →
      exec (.stallReport i) s = .next { s with inbox := s.inbox.eraseIdx i, faults := { s.faults with
        reports := s.faults.reports ++ [m], collecting := some (s.faults.collecting.getD s.time.tick) } })) ∧
  (∀ s : State,
    (isCoordinator s = false ∨ s.faults.dieFailed = true ∨ s.faults.collecting = none → exec .stallCollectionEnd s = .next s) ∧
    (∀ t0, isCoordinator s = true → s.faults.dieFailed = false → s.faults.collecting = some t0 →
      (s.time.tick.toNat < t0.toNat + 100000 → exec .stallCollectionEnd s = .next s) ∧
      (t0.toNat + 100000 ≤ s.time.tick.toNat → ∃ t, exec .stallCollectionEnd s = .next t ∧ t.faults.reports = [] ∧
        t.faults.collecting = none ∧
        (chooseReport s.faults.reports = none → t = { s with faults := { s.faults with reports := [], collecting := none } }) ∧
        (∀ r, chooseReport s.faults.reports = some r → t.faults.lastSeq = s.faults.lastSeq + 1 ∧
          ((∀ x ∈ s.faults.heldBack, pcSeq x ≠ s.faults.changeSeq.toNat + 1) → s.faults.lastSeq = s.faults.changeSeq →
            s.faults.changeSeq.toNat + 1 < 2 ^ 32 → t.faults.pending.getLsbD 3 = true)))))

/-- What a fault or the host takes out of use (R379, R387, R390, R381). FAIL_DIE_REQ in READY fails the die, and before it is ignored and
counted; a failed die falls silent on every link; a valid KX_SPLICE write splices at once with no hold, any other is ignored and counted; a
management message for another instance goes on toward it. The three requests of KX_RECOVERY_CTRL are one write. -/
def Obligations.FailedDiesFallSilent : Prop :=
  ∀ (s : State) (v : Word) (k : Fin 128),
    (exec (.recoveryDone v) s = exec (.spliceReq v) s ∧ exec (.failDieReq v) s = exec (.spliceReq v) s) ∧
    (portLive s = true → v.extractLsb' 61 3 = 1 → isReady s = true → s.faults.dieFailed = false → ∃ t, exec (.failDieReq v) s = .next t ∧
      t.faults.dieFailed = true ∧ t.faults.cause = 8 ∧ t.step.state = .halted ∧ t.faults.pending.getLsbD 0 = true) ∧
    (portLive s = true → v.extractLsb' 61 3 = 1 → isReady s = false → ∃ t, exec (.failDieReq v) s = .next t ∧
      t.faults.dieFailed = s.faults.dieFailed ∧ t.rp.ignored = satAdd s.rp.ignored 1 ∧ t.step = s.step) ∧
    (s.faults.dieFailed = true → s.faults.silenced = false → ∃ t, exec .failedLinkSilence s = .next t ∧
      t = { s with faults := { s.faults with silenced := true }, links := t.links } ∧
      ∀ p ∈ t.links, p.2.state = .failed ∧ p.2.txq = [] ∧ p.2.ctrlQ = [] ∧ p.2.mgmtQ = []) ∧
    (s.faults.dieFailed = false ∨ s.faults.silenced = true → exec .failedLinkSilence s = .next s) ∧
    (portLive s = true → spliceValid v s = false → exec (.spliceWrite k v) s = ignores s (0x4400 + 8 * k.val)) ∧
    (portLive s = true → spliceValid v s = true → ∃ t, exec (.spliceWrite k v) s = .next t ∧
      physOf t (fieldOf v 52 10) = some (fieldOf v 42 10) ∧ t.faults.hold = s.faults.hold ∧ t.step = s.step ∧
      (smGet 0 t.faults.splices k.val).extractLsb' 42 22 = v.extractLsb' 42 22) ∧
    (∀ (i : Nat) (a : Arrival) (m : Msg), s.inbox[i]? = some a → a.body = .mgmt m → mDest m ≠ me s → mDest m ≠ 0xFFFFFF →
      exec (.hopByHopForward i) s = .next (if mType m = 7 then passForward (mDest m) m { s with inbox := s.inbox.eraseIdx i }
        else route (mDest m) m { s with inbox := s.inbox.eraseIdx i }))

/-! ### Arithmetic -/

/-- The exact combine functions and combine_list. INT32 SUM is addition modulo 2^32 and raises OVF exactly when the true sum lies outside
the INT32 range (R62); AND, OR and XOR act bit by bit on any pattern in any format and raise nothing (R66). combine_list over n operands uses
exactly n - 1 application indices, one after another (R34, R81); its row is absent only where every operand's row is (R68); a single operand
passes through with no flag (R35). -/
def Obligations.CombineListAppliesOpOncePerPair : Prop :=
  (∀ (o : OpSpec) (key : Option Nat) (a b : Nat), a < 2 ^ 32 → b < 2 ^ 32 → o.fn = 0 → o.fmt = 5 →
    (elemOp o key a b).1 = (a + b) % 2 ^ 32 ∧
    ((BitVec.ofNat 32 a).toInt + (BitVec.ofNat 32 b).toInt < -(2 ^ 31) ∨ 2 ^ 31 ≤ (BitVec.ofNat 32 a).toInt + (BitVec.ofNat 32 b).toInt →
      (elemOp o key a b).2 = fOvf) ∧
    (-(2 ^ 31) ≤ (BitVec.ofNat 32 a).toInt + (BitVec.ofNat 32 b).toInt → (BitVec.ofNat 32 a).toInt + (BitVec.ofNat 32 b).toInt < 2 ^ 31 →
      (elemOp o key a b).2 = 0)) ∧
  (∀ (o : OpSpec) (key : Option Nat) (a b : Nat), (o.fn = 4 → elemOp o key a b = (a &&& b, 0)) ∧
    (o.fn = 5 → elemOp o key a b = (a ||| b, 0)) ∧ (o.fn = 6 → elemOp o key a b = (a ^^^ b, 0))) ∧
  (∀ (o : OpSpec) (keyOf : Nat → Nat → Option Nat) (v : List (Option Nat)) (fuel next : Nat), v ≠ [] → v.length ≤ fuel →
    (combineRow o keyOf fuel v next).2.2 = next + (v.length - 1) ∧
    ((combineRow o keyOf fuel v next).1 = none ↔ ∀ x ∈ v, x = none) ∧
    (∀ x, v = [x] → combineRow o keyOf fuel v next = (x, 0, next)) ∧
    (∀ x, x ∈ v → (∀ y ∈ v, y = none ∨ y = x) → v.count x = 1 → (combineRow o keyOf fuel v next).1 = x ∧
      (combineRow o keyOf fuel v next).2.1 = 0))
end

