-- ==== Sys2Proof/Laws/Bits.lean ====
section
/-! SUPPORT. Bits.lean: reading what was written in a sparse map, its canonical form, and fields of words. -/

namespace Sys2Proof.Machine

/-! ### Sparse maps -/

theorem smGet_smErase_same {α : Type} (d : α) (m : SMap α) (k : Nat) : smGet d (smErase m k) k = d := by
  induction m with
  | nil => rfl
  | cons p m ih =>
    obtain ⟨q, v⟩ := p
    unfold smErase at *
    by_cases h : q = k
    · subst h; simpa [List.filter] using ih
    · have : (q != k) = true := by simpa using h
      simp only [List.filter, this, smGet]
      rw [if_neg (fun e => h e.symm)]
      exact ih

theorem smGet_smErase_ne {α : Type} (d : α) (m : SMap α) (k j : Nat) (h : j ≠ k) : smGet d (smErase m k) j = smGet d m j := by
  induction m with
  | nil => rfl
  | cons p m ih =>
    obtain ⟨q, v⟩ := p
    unfold smErase at *
    by_cases hq : q = k
    · subst hq
      simp only [List.filter, bne_self_eq_false, smGet, if_neg h]
      exact ih
    · have : (q != k) = true := by simpa using hq
      simp only [List.filter, this, smGet]
      split
      · rfl
      · exact ih

/-- What was put at a key is read there. -/
@[simp] theorem smGet_smSet_same {α : Type} [DecidableEq α] (d : α) (m : SMap α) (k : Nat) (v : α) : smGet d (smSet d m k v) k = v := by
  induction m with
  | nil =>
    unfold smSet
    split
    · simp_all [smGet]
    · simp [smGet]
  | cons p m ih =>
    obtain ⟨q, w⟩ := p
    unfold smSet
    split
    · split
      · next h => rw [smGet_smErase_same]; exact h.symm
      · simp [smGet]
    · split
      · split
        · next h => rw [smGet_smErase_same]; exact h.symm
        · simp [smGet]
      · next h => simp [smGet, h, ih]

/-- Every other key reads as before. -/
theorem smGet_smSet_ne {α : Type} [DecidableEq α] (e d : α) (m : SMap α) (k j : Nat) (v : α) (h : j ≠ k) :
    smGet e (smSet d m k v) j = smGet e m j := by
  induction m with
  | nil =>
    unfold smSet
    split
    · rfl
    · simp [smGet, h]
  | cons p m ih =>
    obtain ⟨q, w⟩ := p
    unfold smSet
    split
    · split
      · exact smGet_smErase_ne e _ k j h
      · simp [smGet, h]
    · split
      · next h2 =>
        subst h2
        split
        · rw [smGet_smErase_ne e _ k j h]; simp [smGet, h]
        · simp [smGet, h]
      · simp only [smGet]
        split
        · rfl
        · exact ih

@[simp] theorem smGet_smMod_same {α : Type} [DecidableEq α] (d : α) (m : SMap α) (k : Nat) (f : α → α) :
    smGet d (smMod d m k f) k = f (smGet d m k) := smGet_smSet_same d m k _

theorem smGet_smMod_ne {α : Type} [DecidableEq α] (e d : α) (m : SMap α) (k j : Nat) (f : α → α) (h : j ≠ k) :
    smGet e (smMod d m k f) j = smGet e m j := smGet_smSet_ne e d m k j _ h

theorem smWfFrom_mono {α : Type} [DecidableEq α] (d : α) (m : SMap α) (a b : Nat) (h : a ≤ b) (w : smWfFrom d b m = true) :
    smWfFrom d a m = true := by
  cases m with
  | nil => rfl
  | cons p m =>
    obtain ⟨q, v⟩ := p
    simp only [smWfFrom, Bool.and_eq_true, decide_eq_true_eq] at *
    exact ⟨⟨by omega, w.1.2⟩, w.2⟩

theorem smWfFrom_erase {α : Type} [DecidableEq α] (d : α) (m : SMap α) (a k : Nat) (w : smWfFrom d a m = true) :
    smWfFrom d a (smErase m k) = true := by
  induction m generalizing a with
  | nil => rfl
  | cons p m ih =>
    obtain ⟨q, v⟩ := p
    simp only [smWfFrom, Bool.and_eq_true, decide_eq_true_eq] at w
    unfold smErase at *
    by_cases hq : q = k
    · subst hq
      simp only [List.filter, bne_self_eq_false]
      exact smWfFrom_mono d _ a (q + 1) (by omega) (ih (q + 1) w.2)
    · have : (q != k) = true := by simpa using hq
      simp only [List.filter, this, smWfFrom, Bool.and_eq_true, decide_eq_true_eq]
      exact ⟨w.1, ih (q + 1) w.2⟩

theorem smWfFrom_smSet {α : Type} [DecidableEq α] (d : α) (m : SMap α) (a k : Nat) (v : α) (ha : a ≤ k)
    (w : smWfFrom d a m = true) : smWfFrom d a (smSet d m k v) = true := by
  induction m generalizing a with
  | nil =>
    unfold smSet
    split
    · rfl
    · next h => simp [smWfFrom, ha, h]
  | cons p m ih =>
    obtain ⟨q, x⟩ := p
    have w0 := w
    simp only [smWfFrom, Bool.and_eq_true, decide_eq_true_eq] at w
    unfold smSet
    split
    · next h =>
      split
      · exact smWfFrom_erase d _ a k w0
      · next hv =>
        simp only [smWfFrom, Bool.and_eq_true, decide_eq_true_eq]
        exact ⟨⟨ha, hv⟩, ⟨by omega, w.1.2⟩, w.2⟩
    · split
      · next h2 =>
        subst h2
        split
        · exact smWfFrom_erase d _ a k (smWfFrom_mono d _ a (k + 1) (by omega) w.2)
        · next hv =>
          simp only [smWfFrom, Bool.and_eq_true, decide_eq_true_eq]
          exact ⟨⟨ha, hv⟩, w.2⟩
      · next h1 h2 =>
        simp only [smWfFrom, Bool.and_eq_true, decide_eq_true_eq]
        exact ⟨w.1, ih (q + 1) (by omega) w.2⟩

/-- A write keeps the canonical form. -/
theorem smWf_smSet {α : Type} [DecidableEq α] (d : α) (m : SMap α) (k : Nat) (v : α) (w : smWf d m = true) : smWf d (smSet d m k v) = true :=
  smWfFrom_smSet d m 0 k v (Nat.zero_le k) w

theorem smWf_smMod {α : Type} [DecidableEq α] (d : α) (m : SMap α) (k : Nat) (f : α → α) (w : smWf d m = true) :
    smWf d (smMod d m k f) = true := smWf_smSet d m k _ w

/-! ### Fields -/

theorem fieldOf_eq (w : Word) (lo len : Nat) : fieldOf w lo len = (w.extractLsb' lo len).toNat := by
  simp only [fieldOf, BitVec.extractLsb', BitVec.toNat_ofNat]

@[simp] theorem ofNat_fieldOf (w : Word) (lo len : Nat) : BitVec.ofNat len (fieldOf w lo len) = w.extractLsb' lo len := by
  rw [fieldOf_eq, BitVec.ofNat_toNat, BitVec.setWidth_eq]

theorem fieldOf_lt (w : Word) (lo len : Nat) : fieldOf w lo len < 2 ^ len := by
  unfold fieldOf; exact Nat.mod_lt _ (Nat.two_pow_pos len)

@[simp] theorem bitOf_eq (w : Word) (i : Nat) : bitOf w i = w.getLsbD i := rfl

theorem putField_toNat (lo len v : Nat) (h : lo + len ≤ 64) : (putField lo len v).toNat = v % 2 ^ len * 2 ^ lo := by
  have hv : v % 2 ^ len < 2 ^ len := Nat.mod_lt _ (Nat.two_pow_pos len)
  have : v % 2 ^ len * 2 ^ lo < 2 ^ 64 := by
    calc v % 2 ^ len * 2 ^ lo < 2 ^ len * 2 ^ lo := Nat.mul_lt_mul_of_pos_right hv (Nat.two_pow_pos lo)
      _ = 2 ^ (len + lo) := by rw [Nat.pow_add]
      _ ≤ 2 ^ 64 := Nat.pow_le_pow_right (by decide) (by omega)
  simp only [putField, Nat.shiftLeft_eq, BitVec.toNat_ofNat]
  exact Nat.mod_eq_of_lt this

/-- A bit of a field that was put: bit `i - lo` of the value inside the field, 0 outside. -/
theorem getLsbD_putField (lo len v i : Nat) : (putField lo len v).getLsbD i = (decide (i < 64) && decide (lo ≤ i) && decide (i < lo + len) &&
    v.testBit (i - lo)) := by
  simp only [putField, BitVec.getLsbD_ofNat, Nat.testBit_shiftLeft, Nat.testBit_mod_two_pow]
  by_cases h2 : lo ≤ i
  · have e : decide (i - lo < len) = decide (i < lo + len) := by
      by_cases h3 : i < lo + len <;> simp [h3] <;> omega
    simp [h2, e, Bool.and_assoc]
  · simp [h2]

end Sys2Proof.Machine
end

