-- ==== Sys2Proof/Laws/Touch.lean ====
section
/-! SUPPORT. Touch.lean: which parts of the state an operation may change, as one relation that composes. -/

namespace Sys2Proof.Machine

/-- The parts of the state that an operation may change. `exc` is the count of exceptions in `time`, `early` the unclean reasons and the
early-request marks in `step`, `nodes` the node instances in `kiln`, `counts` the part of the port that counts accesses. -/
structure Touch where
  pins : Bool := false
  rp : Bool := false
  log : Bool := false
  freeze : Bool := false
  inject : Bool := false
  kindle : Bool := false
  image : Bool := false
  time : Bool := false
  power : Bool := false
  step : Bool := false
  faults : Bool := false
  kiln : Bool := false
  leaves : Bool := false
  shadows : Bool := false
  links : Bool := false
  fabric : Bool := false
  tables : Bool := false
  ctr : Bool := false
  inbox : Bool := false
  free : Bool := false
  exc : Bool := false
  early : Bool := false
  nodes : Bool := false
  deriving DecidableEq, Repr

/-- One set of parts lies within another. -/
def Touch.le (a b : Touch) : Bool :=
  (!a.pins || b.pins) && (!a.rp || b.rp) && (!a.log || b.log) && (!a.freeze || b.freeze) && (!a.inject || b.inject) && (!a.kindle || b.kindle) &&
      (!a.image || b.image) && (!a.time || b.time) && (!a.power || b.power) && (!a.step || b.step) && (!a.faults || b.faults) &&
      (!a.kiln || b.kiln) && (!a.leaves || b.leaves) && (!a.shadows || b.shadows) && (!a.links || b.links) && (!a.fabric || b.fabric) &&
      (!a.tables || b.tables) && (!a.ctr || b.ctr) && (!a.inbox || b.inbox) && (!a.free || b.free) && (!a.exc || b.exc || b.time) && 
      (!a.early || b.early || b.step) && (!a.nodes || b.nodes || b.kiln)

/-- The time field without the count of exceptions. -/
def Time.dim (t : Time) : Time := { t with exceptionsNow := 0 }

/-- The step field without its unclean reasons and early-request marks. -/
def Step.dim (t : Step) : Step := { t with unclean := 0, earlySent := false, nEarly := 0 }

/-- The kiln field without its node instances. -/
def Kiln.dim (t : Kiln) : Kiln := { t with nodes := [] }

/-- Two states agree but for the parts that may have changed. -/
structure Touches (T : Touch) (s t : State) : Prop where
  params : t.params = s.params
  pending : t.pending = s.pending
  pins : T.pins = false → t.pins = s.pins
  rp : T.rp = false → t.rp = s.rp
  log : T.log = false → t.log = s.log
  freeze : T.freeze = false → t.freeze = s.freeze
  inject : T.inject = false → t.inject = s.inject
  kindle : T.kindle = false → t.kindle = s.kindle
  image : T.image = false → t.image = s.image
  power : T.power = false → t.power = s.power
  faults : T.faults = false → t.faults = s.faults
  leaves : T.leaves = false → t.leaves = s.leaves
  shadows : T.shadows = false → t.shadows = s.shadows
  links : T.links = false → t.links = s.links
  fabric : T.fabric = false → t.fabric = s.fabric
  tables : T.tables = false → t.tables = s.tables
  ctr : T.ctr = false → t.ctr = s.ctr
  inbox : T.inbox = false → t.inbox = s.inbox
  free : T.free = false → t.free = s.free
  time : T.time = false → T.exc = false → t.time = s.time
  timeDim : T.time = false → t.time.dim = s.time.dim
  step : T.step = false → T.early = false → t.step = s.step
  stepDim : T.step = false → t.step.dim = s.step.dim
  kiln : T.kiln = false → T.nodes = false → t.kiln = s.kiln
  kilnDim : T.kiln = false → t.kiln.dim = s.kiln.dim

/-- Nothing has changed. -/
theorem Touches.refl (T : Touch) (s : State) : Touches T s s := by
  constructor <;> intros <;> rfl

/-- One change after another. -/
theorem Touches.trans {T : Touch} {s t u : State} (h : Touches T s t) (k : Touches T t u) : Touches T s u := by
  constructor
  · exact k.params.trans h.params
  · exact k.pending.trans h.pending
  · exact fun e => (k.pins e).trans (h.pins e)
  · exact fun e => (k.rp e).trans (h.rp e)
  · exact fun e => (k.log e).trans (h.log e)
  · exact fun e => (k.freeze e).trans (h.freeze e)
  · exact fun e => (k.inject e).trans (h.inject e)
  · exact fun e => (k.kindle e).trans (h.kindle e)
  · exact fun e => (k.image e).trans (h.image e)
  · exact fun e => (k.power e).trans (h.power e)
  · exact fun e => (k.faults e).trans (h.faults e)
  · exact fun e => (k.leaves e).trans (h.leaves e)
  · exact fun e => (k.shadows e).trans (h.shadows e)
  · exact fun e => (k.links e).trans (h.links e)
  · exact fun e => (k.fabric e).trans (h.fabric e)
  · exact fun e => (k.tables e).trans (h.tables e)
  · exact fun e => (k.ctr e).trans (h.ctr e)
  · exact fun e => (k.inbox e).trans (h.inbox e)
  · exact fun e => (k.free e).trans (h.free e)
  · exact fun e e2 => (k.time e e2).trans (h.time e e2)
  · exact fun e => (k.timeDim e).trans (h.timeDim e)
  · exact fun e e2 => (k.step e e2).trans (h.step e e2)
  · exact fun e => (k.stepDim e).trans (h.stepDim e)
  · exact fun e e2 => (k.kiln e e2).trans (h.kiln e e2)
  · exact fun e => (k.kilnDim e).trans (h.kilnDim e)

/-- What stays within some parts stays within more. -/
theorem Touches.mono {a b : Touch} {s t : State} (h : Touches a s t) (le : a.le b = true) : Touches b s t := by
  simp only [Touch.le, Bool.and_eq_true, Bool.or_eq_true, Bool.not_eq_true'] at le
  constructor
  · exact h.params
  · exact h.pending
  · intro e; exact h.pins (by simp_all)
  · intro e; exact h.rp (by simp_all)
  · intro e; exact h.log (by simp_all)
  · intro e; exact h.freeze (by simp_all)
  · intro e; exact h.inject (by simp_all)
  · intro e; exact h.kindle (by simp_all)
  · intro e; exact h.image (by simp_all)
  · intro e; exact h.power (by simp_all)
  · intro e; exact h.faults (by simp_all)
  · intro e; exact h.leaves (by simp_all)
  · intro e; exact h.shadows (by simp_all)
  · intro e; exact h.links (by simp_all)
  · intro e; exact h.fabric (by simp_all)
  · intro e; exact h.tables (by simp_all)
  · intro e; exact h.ctr (by simp_all)
  · intro e; exact h.inbox (by simp_all)
  · intro e; exact h.free (by simp_all)
  · intro e e2; exact h.time (by simp_all) (by simp_all)
  · intro e; exact h.timeDim (by simp_all)
  · intro e e2; exact h.step (by simp_all) (by simp_all)
  · intro e; exact h.stepDim (by simp_all)
  · intro e e2; exact h.kiln (by simp_all) (by simp_all)
  · intro e; exact h.kilnDim (by simp_all)

end Sys2Proof.Machine
end

