-- ==== Sys2Proof/Laws/Ops.lean ====
section
/-! SUPPORT. Ops.lean: what each shared operation of Machine/Ops.lean may change. -/

namespace Sys2Proof.Machine

/-- Every operation that a fold applies stays within some parts, so the fold does. -/
theorem forEach_touch {α : Type} {T : Touch} {s u : State} (hs : Touches T s u) (l : List α) (f : α → State → State)
    (h : ∀ a v, Touches T s v → Touches T s (f a v)) : Touches T s (forEach l u f) := by
  unfold forEach
  induction l generalizing u with
  | nil => exact hs
  | cons a l ih => exact ih (h a u hs)

theorem onlyIf_touch {T : Touch} {s u : State} (b : Bool) (f : State → State) (hs : Touches T s u)
    (h : ∀ v, Touches T s v → Touches T s (f v)) : Touches T s (onlyIf b u f) := by
  unfold onlyIf
  split
  · exact h u hs
  · exact hs

theorem withSome_touch {α : Type} {T : Touch} {s u : State} (o : Option α) (f : α → State → State) (hs : Touches T s u)
    (h : ∀ a v, Touches T s v → Touches T s (f a v)) : Touches T s (withSome o u f) := by
  unfold withSome
  split
  · exact h _ u hs
  · exact hs

variable {T : Touch} {s u : State}

/-! ### One field at a time -/

theorem Touches.pinsUpd (hs : Touches T s u) (h : T.pins = true) (v : Pins) : Touches T s { u with pins := v } := by
  refine hs.trans ?_; constructor <;> first
    | exact rfl | exact fun _ => rfl | exact fun _ _ => rfl | (intro e; simp [h] at e)

theorem Touches.rpUpd (hs : Touches T s u) (h : T.rp = true) (v : RegPort) : Touches T s { u with rp := v } := by
  refine hs.trans ?_; constructor <;> first
    | exact rfl | exact fun _ => rfl | exact fun _ _ => rfl | (intro e; simp [h] at e)

theorem Touches.logUpd (hs : Touches T s u) (h : T.log = true) (v : AshLog) : Touches T s { u with log := v } := by
  refine hs.trans ?_; constructor <;> first
    | exact rfl | exact fun _ => rfl | exact fun _ _ => rfl | (intro e; simp [h] at e)

theorem Touches.freezeUpd (hs : Touches T s u) (h : T.freeze = true) (v : Freeze) : Touches T s { u with freeze := v } := by
  refine hs.trans ?_; constructor <;> first
    | exact rfl | exact fun _ => rfl | exact fun _ _ => rfl | (intro e; simp [h] at e)

theorem Touches.injectUpd (hs : Touches T s u) (h : T.inject = true) (v : Inject) : Touches T s { u with inject := v } := by
  refine hs.trans ?_; constructor <;> first
    | exact rfl | exact fun _ => rfl | exact fun _ _ => rfl | (intro e; simp [h] at e)

theorem Touches.kindleUpd (hs : Touches T s u) (h : T.kindle = true) (v : Kindle) : Touches T s { u with kindle := v } := by
  refine hs.trans ?_; constructor <;> first
    | exact rfl | exact fun _ => rfl | exact fun _ _ => rfl | (intro e; simp [h] at e)

theorem Touches.imageUpd (hs : Touches T s u) (h : T.image = true) (v : Option Image) : Touches T s { u with image := v } := by
  refine hs.trans ?_; constructor <;> first
    | exact rfl | exact fun _ => rfl | exact fun _ _ => rfl | (intro e; simp [h] at e)

theorem Touches.timeUpd (hs : Touches T s u) (h : T.time = true) (v : Time) : Touches T s { u with time := v } := by
  refine hs.trans ?_; constructor <;> first
    | exact rfl | exact fun _ => rfl | exact fun _ _ => rfl | (intro e; simp [h] at e)

theorem Touches.powerUpd (hs : Touches T s u) (h : T.power = true) (v : Power) : Touches T s { u with power := v } := by
  refine hs.trans ?_; constructor <;> first
    | exact rfl | exact fun _ => rfl | exact fun _ _ => rfl | (intro e; simp [h] at e)

theorem Touches.stepUpd (hs : Touches T s u) (h : T.step = true) (v : Step) : Touches T s { u with step := v } := by
  refine hs.trans ?_; constructor <;> first
    | exact rfl | exact fun _ => rfl | exact fun _ _ => rfl | (intro e; simp [h] at e)

theorem Touches.faultsUpd (hs : Touches T s u) (h : T.faults = true) (v : Faults) : Touches T s { u with faults := v } := by
  refine hs.trans ?_; constructor <;> first
    | exact rfl | exact fun _ => rfl | exact fun _ _ => rfl | (intro e; simp [h] at e)

theorem Touches.kilnUpd (hs : Touches T s u) (h : T.kiln = true) (v : Kiln) : Touches T s { u with kiln := v } := by
  refine hs.trans ?_; constructor <;> first
    | exact rfl | exact fun _ => rfl | exact fun _ _ => rfl | (intro e; simp [h] at e)

theorem Touches.leavesUpd (hs : Touches T s u) (h : T.leaves = true) (v : SMap Leaf) : Touches T s { u with leaves := v } := by
  refine hs.trans ?_; constructor <;> first
    | exact rfl | exact fun _ => rfl | exact fun _ _ => rfl | (intro e; simp [h] at e)

theorem Touches.shadowsUpd (hs : Touches T s u) (h : T.shadows = true) (v : SMap Shadow) : Touches T s { u with shadows := v } := by
  refine hs.trans ?_; constructor <;> first
    | exact rfl | exact fun _ => rfl | exact fun _ _ => rfl | (intro e; simp [h] at e)

theorem Touches.linksUpd (hs : Touches T s u) (h : T.links = true) (v : SMap LinkSt) : Touches T s { u with links := v } := by
  refine hs.trans ?_; constructor <;> first
    | exact rfl | exact fun _ => rfl | exact fun _ _ => rfl | (intro e; simp [h] at e)

theorem Touches.fabricUpd (hs : Touches T s u) (h : T.fabric = true) (v : Fabric) : Touches T s { u with fabric := v } := by
  refine hs.trans ?_; constructor <;> first
    | exact rfl | exact fun _ => rfl | exact fun _ _ => rfl | (intro e; simp [h] at e)

theorem Touches.tablesUpd (hs : Touches T s u) (h : T.tables = true) (v : Tables) : Touches T s { u with tables := v } := by
  refine hs.trans ?_; constructor <;> first
    | exact rfl | exact fun _ => rfl | exact fun _ _ => rfl | (intro e; simp [h] at e)

theorem Touches.ctrUpd (hs : Touches T s u) (h : T.ctr = true) (v : SMap Nat) : Touches T s { u with ctr := v } := by
  refine hs.trans ?_; constructor <;> first
    | exact rfl | exact fun _ => rfl | exact fun _ _ => rfl | (intro e; simp [h] at e)

theorem Touches.inboxUpd (hs : Touches T s u) (h : T.inbox = true) (v : List Arrival) : Touches T s { u with inbox := v } := by
  refine hs.trans ?_; constructor <;> first
    | exact rfl | exact fun _ => rfl | exact fun _ _ => rfl | (intro e; simp [h] at e)

theorem Touches.freeUpd (hs : Touches T s u) (h : T.free = true) (v : Nat) : Touches T s { u with free := v } := by
  refine hs.trans ?_; constructor <;> first
    | exact rfl | exact fun _ => rfl | exact fun _ _ => rfl | (intro e; simp [h] at e)

theorem Touches.excUpd (hs : Touches T s u) (h : T.exc = true) (n : Nat) :
    Touches T s { u with time := { u.time with exceptionsNow := n } } := by
  refine hs.trans ?_; constructor <;> first
    | exact rfl | exact fun _ => rfl | exact fun _ _ => rfl | (intro _ e; simp [h] at e)

theorem Touches.earlyUpd (hs : Touches T s u) (h : T.early = true) (x : BitVec 32) (b : Bool) (n : BitVec 16) :
    Touches T s { u with step := { u.step with unclean := x, earlySent := b, nEarly := n } } := by
  refine hs.trans ?_; constructor <;> first
    | exact rfl | exact fun _ => rfl | exact fun _ _ => rfl | (intro _ e; simp [h] at e)

theorem Touches.nodesUpd (hs : Touches T s u) (h : T.nodes = true) (v : List NodeInst) :
    Touches T s { u with kiln := { u.kiln with nodes := v } } := by
  refine hs.trans ?_; constructor <;> first
    | exact rfl | exact fun _ => rfl | exact fun _ _ => rfl | (intro _ e; simp [h] at e)

/-! ### Counters, domains, leaves, events -/

theorem ctrAdd_touch (hs : Touches T s u) (h : T.ctr = true) (off k : Nat) : Touches T s (ctrAdd off k u) := hs.ctrUpd h _

theorem linkCtr_touch (hs : Touches T s u) (h : T.ctr = true) (k off n : Nat) : Touches T s (linkCtr k off n u) := ctrAdd_touch hs h _ _

theorem segCtr_touch (hs : Touches T s u) (h : T.ctr = true) (g off n : Nat) : Touches T s (segCtr g off n u) := ctrAdd_touch hs h _ _

theorem setDom_touch (hs : Touches T s u) (h : T.power = true) (d : Nat) (f : Dom → Dom) : Touches T s (setDom d f u) := hs.powerUpd h _

theorem useFree_touch (hs : Touches T s u) (h : T.free = true) : Touches T s (useFree u) := hs.freeUpd h _

theorem setLeaf_touch (hs : Touches T s u) (h : T.leaves = true) (t : Nat) (f : Leaf → Leaf) : Touches T s (setLeaf t f u) := hs.leavesUpd h _

theorem pushEvent_touch (hs : Touches T s u) (h : T.log = true) (e : LogEvent) : Touches T s (pushEvent e u) := by
  unfold pushEvent
  split
  · exact hs
  · split
    · exact hs.logUpd h _
    · exact hs.logUpd h _

theorem noteTime_touch (hs : Touches T s u) (h : T.exc = true) : Touches T s (noteTime u) := by
  unfold noteTime
  split
  · exact hs.excUpd h _
  · exact hs

/-- The parts that logging may change. -/
def Touch.logs (T : Touch) : Bool := T.log && T.exc && T.free

theorem logEv_touch (hs : Touches T s u) (h : T.logs = true) (c n a b : Nat) : Touches T s (logEv c n a b u) := by
  simp only [Touch.logs, Bool.and_eq_true] at h
  unfold logEv
  refine useFree_touch (pushEvent_touch ?_ h.1.1 _) h.2
  split
  · exact noteTime_touch hs h.1.2
  · exact hs

theorem logWide_touch (hs : Touches T s u) (h : T.logs = true) (c n : Nat) (w : Word) (a b : Nat) : Touches T s (logWide c n w a b u) := by
  simp only [Touch.logs, Bool.and_eq_true] at h
  exact useFree_touch (pushEvent_touch hs h.1.1 _) h.2

theorem setPend_touch (hs : Touches T s u) (h : T.faults = true) (m : BitVec 8) : Touches T s (setPend m u) := hs.faultsUpd h _

theorem otherSeen_touch (hs : Touches T s u) (h : T.faults = true) : Touches T s (otherSeen u) := setPend_touch hs h _

theorem countIgnored_touch (hs : Touches T s u) (h : T.rp = true) (off : Nat) : Touches T s (countIgnored off u) := hs.rpUpd h _

/-! ### Links and messages -/

theorem deliver_touch (hs : Touches T s u) (h : T.inbox = true) (a : Arrival) : Touches T s (deliver a u) := hs.inboxUpd h _

theorem setLink_touch (hs : Touches T s u) (h : T.links = true) (k : Nat) (f : LinkSt → LinkSt) : Touches T s (setLink k f u) := hs.linksUpd h _

theorem setFlow_touch (hs : Touches T s u) (h : T.links = true) (k f : Nat) (g : Flow → Flow) : Touches T s (setFlow k f g u) :=
  setLink_touch hs h _ _

theorem queueTx_touch (hs : Touches T s u) (h : T.links = true) (k v : Nat) (q : TxCord) : Touches T s (queueTx k v q u) :=
  setLink_touch hs h _ _

theorem queueCord_touch (hs : Touches T s u) (h : T.links = true) (k f v : Nat) (c : Cord) (b : Bool) :
    Touches T s (queueCord k f v c b u) := queueTx_touch hs h _ _ _

theorem linkMsg_touch (hs : Touches T s u) (h : T.links = true) (k f : Nat) (b : Bool) (m : Msg) : Touches T s (linkMsg k f b m u) :=
  setLink_touch hs h _ _

theorem ctrlOn_touch (hs : Touches T s u) (h : T.links = true) (k f : Nat) (m : Msg) : Touches T s (ctrlOn k f m u) :=
  linkMsg_touch hs h _ _ _ _

/-- The parts that traffic inside and outside the die may change. -/
def Touch.sends (T : Touch) : Bool := T.links && T.inbox && T.fabric

theorem Touch.sends_links {T : Touch} (h : T.sends = true) : T.links = true := by simp [Touch.sends] at h; exact h.1.1
theorem Touch.sends_inbox {T : Touch} (h : T.sends = true) : T.inbox = true := by simp [Touch.sends] at h; exact h.1.2
theorem Touch.sends_fabric {T : Touch} (h : T.sends = true) : T.fabric = true := by simp [Touch.sends] at h; exact h.2

theorem queueItem_touch (hs : Touches T s u) (h : T.fabric = true) (b : Bool) (src : Nat) (ds : List Nat) (vc : Nat) (a : Arrival)
    (lv : List (Nat × Nat)) : Touches T s (queueItem b src ds vc a lv u) := hs.fabricUpd h _

/-- What finds no link that serves waits in the fabric until one does. -/
theorem park_touch (hs : Touches T s u) (h : T.fabric = true) (n i l v : Nat) (b : Body) (g : Bool) : Touches T s (park n i l v b g u) :=
  hs.fabricUpd h _

/-- An item's cord buffer, where it is in one, is given back. -/
theorem giveItem_touch (hs : Touches T s u) (b : Option Nat) (h : T.kiln = true ∨ b = none) : Touches T s (withSome b u giveBuf) := by
  cases b with
  | none => exact hs
  | some x =>
    cases h with
    | inl h => exact hs.kilnUpd h _
    | inr h => cases h

theorem passOn_touch (hs : Touches T s u) (h : T.fabric = true) (stop k f idx : Nat) (it : RingItem) :
    Touches T s (passOn stop k f idx it u) := by
  unfold passOn
  split
  · split
    · exact hs
    · exact queueItem_touch hs h _ _ _ _ _ _
  · exact park_touch hs h _ _ _ _ _ _

/-- A cord or message leaves the rings at a stop: with no leaves named and no buffer to give back, only the links, the inbox and the fabric can
change. -/
theorem ejectAt_touch (hs : Touches T s u) (h : T.sends = true) (stop : Nat) (it : RingItem) (hl : T.leaves = true ∨ it.leaves = [])
    (hb : T.kiln = true ∨ it.item.buf = none) : Touches T s (ejectAt stop it u) := by
  have hk := Touch.sends_links h
  have hi := Touch.sends_inbox h
  have hf := Touch.sends_fabric h
  have hg := giveItem_touch hs it.item.buf hb
  unfold ejectAt
  dsimp only
  by_cases ho : unitAt stop < 0x30
  · simp only [ho, decide_true, if_true]
    split
    · split
      · exact passOn_touch hg hf _ _ _ _ _
      · split
        · exact queueTx_touch hg hk _ _ _
        · exact linkMsg_touch hg hk _ _ _ _
        · exact linkMsg_touch hg hk _ _ _ _
        · exact hg
    · exact hg
  · simp only [ho, decide_false, Bool.false_eq_true, if_false]
    split
    · exact deliver_touch hs hi _
    · next hne =>
      split
      · split
        · exact deliver_touch hs hi _
        · refine forEach_touch hs _ _ (fun _ _ hv => ?_)
          cases hl with
          | inl hl => exact setLeaf_touch hv hl _ _
          | inr hl => simp [hl] at hne
      · exact hs

theorem onRings_touch (hs : Touches T s u) (h : T.sends = true) (b : Bool) (src : Nat) (dests : List Nat) (vc : Nat) (a : Arrival)
    (leaves : List (Nat × Nat)) (hl : T.leaves = true ∨ leaves = []) (hb : T.kiln = true ∨ a.buf = none) :
    Touches T s (onRings b src dests vc a leaves u) := by
  unfold onRings
  dsimp only
  split
  · split
    · exact ejectAt_touch hs h _ _ hl hb
    · exact hs
  · split
    · exact queueItem_touch (ejectAt_touch hs h _ _ hl hb) (Touch.sends_fabric h) _ _ _ _ _ _
    · exact queueItem_touch hs (Touch.sends_fabric h) _ _ _ _ _ _

theorem toStops_touch (hs : Touches T s u) (h : T.sends = true) (src : Nat) (dests : List Nat) (vc : Nat) (a : Arrival)
    (leaves : List (Nat × Nat)) (hl : T.leaves = true ∨ leaves = []) (hb : T.kiln = true ∨ a.buf = none) :
    Touches T s (toStops src dests vc a leaves u) :=
  onRings_touch hs h _ _ _ _ _ _ hl hb

theorem msgOn_touch (hs : Touches T s u) (h : T.sends = true) (b : Bool) (k f : Nat) (m : Msg) : Touches T s (msgOn b k f m u) :=
  toStops_touch hs h _ _ _ _ _ (.inr rfl) (.inr rfl)

theorem mgmtOn_touch (hs : Touches T s u) (h : T.sends = true) (k f : Nat) (m : Msg) : Touches T s (mgmtOn k f m u) :=
  msgOn_touch hs h _ _ _ _

theorem mgmtTo_touch (hs : Touches T s u) (h : T.sends = true) (i l : Nat) (m : Msg) : Touches T s (mgmtTo i l m u) := by
  unfold mgmtTo
  split
  · exact mgmtOn_touch hs h _ _ _
  · exact park_touch hs (Touch.sends_fabric h) _ _ _ _ _ _

theorem ctrlTo_touch (hs : Touches T s u) (h : T.sends = true) (i l : Nat) (m : Msg) : Touches T s (ctrlTo i l m u) := by
  unfold ctrlTo
  split
  · exact msgOn_touch hs h _ _ _ _
  · exact park_touch hs (Touch.sends_fabric h) _ _ _ _ _ _

theorem route_touch (hs : Touches T s u) (h : T.sends = true) (d : Nat) (m : Msg) : Touches T s (route d m u) := by
  unfold route
  split
  · exact deliver_touch hs (Touch.sends_inbox h) _
  · split
    · exact mgmtTo_touch hs h _ _ _
    · exact hs

theorem flood_touch (hs : Touches T s u) (h : T.sends = true) (m : Msg) : Touches T s (flood m u) :=
  forEach_touch (forEach_touch hs _ _ (fun _ _ hv => mgmtOn_touch hv h _ _ _)) _ _ (fun _ _ hv => mgmtTo_touch hv h _ _ _)

theorem sendInst_touch (hs : Touches T s u) (h : T.sends = true) (src i l vc : Nat) (c : Cord) (b : Bool) :
    Touches T s (sendInst src i l vc c b u) := by
  unfold sendInst
  dsimp only
  split
  · exact onRings_touch hs h _ _ _ _ _ _ (.inr rfl) (.inr rfl)
  · exact park_touch hs (Touch.sends_fabric h) _ _ _ _ _ _

theorem passForward_touch (hs : Touches T s u) (h : T.sends = true) (h3 : T.log = true) (d : Nat) (m : Msg) :
    Touches T s (passForward d m u) := by
  unfold passForward
  split
  · exact route_touch hs h _ _
  · exact hs.logUpd h3 _

/-! ### The seal row and what an attempt notes -/

theorem sealTo_touch (hs : Touches T s u) (h : T.sends = true) (x : Nat) (g : GroupDef) (l c i v w : Nat) (r : Row) :
    Touches T s (sealTo x g l c i v w r u) := by
  unfold sealTo
  split
  · exact hs
  · dsimp only
    split
    · exact toStops_touch hs h _ _ _ _ _ (.inr rfl) (.inr rfl)
    · exact sendInst_touch hs h _ _ _ _ _ _

theorem feedSeal_touch (hs : Touches T s u) (h : T.sends = true) (i : Nat) (r : Row) : Touches T s (feedSeal i r u) := by
  unfold feedSeal
  split
  · exact hs
  · split
    · exact hs
    · exact sealTo_touch hs h _ _ _ _ _ _ _ _

theorem sendEarly_touch (hs : Touches T s u) (h : T.sends = true) (h2 : T.early = true) : Touches T s (sendEarly u) :=
  feedSeal_touch (hs.earlyUpd h2 u.step.unclean true (satAdd u.step.nEarly 1)) h _ _

theorem raiseUnclean_touch (hs : Touches T s u) (h : T.sends = true) (h2 : T.early = true) (b : BitVec 32) : Touches T s (raiseUnclean b u) := by
  unfold raiseUnclean
  split
  · exact sendEarly_touch (hs.earlyUpd h2 _ u.step.earlySent u.step.nEarly) h h2
  · exact hs

theorem addDigest_touch (hs : Touches T s u) (h : T.step = true) (p : Nat) (a b : BitVec 32) : Touches T s (addDigest p a b u) := hs.stepUpd h _

theorem addFlags_touch (hs : Touches T s u) (h : T.step = true) (p f : Nat) : Touches T s (addFlags p f u) := hs.stepUpd h _

theorem raiseNf_touch (hs : Touches T s u) (h : T.step = true) (e : PlanEntry) (f : Nat) : Touches T s (raiseNf e f u) := by
  unfold raiseNf
  split
  · split
    · split <;> exact hs.stepUpd h _
    · exact hs
  · exact hs

theorem originate_touch (hs : Touches T s u) (h : T.step = true) (e : PlanEntry) : Touches T s (originate e u) := by
  unfold originate
  split
  · exact hs.stepUpd h _
  · exact hs

theorem discard_touch (hs : Touches T s u) (h : T.logs = true) (h2 : T.ctr = true) (p c r n : Nat) : Touches T s (discard p c r n u) :=
  logEv_touch (ctrAdd_touch hs h2 _ _) h _ _ _ _

theorem protocolError_touch (hs : Touches T s u) (h : T.logs = true) (h2 : T.sends = true) (h3 : T.early = true) (p c r n : Nat) :
    Touches T s (protocolError p c r n u) := raiseUnclean_touch (logEv_touch hs h _ _ _ _) h2 h3 _

/-! ### Outcomes -/

/-- Every command keeps the queue and the integration parameters. -/
theorem done_eq (h : Touches T s u) : done s u = .next u := by
  unfold done
  rw [← h.params, ← h.pending]

theorem done_same (s : State) : done s s = .next s := rfl

theorem hostWrite_live (s : State) (f : State → State) (h : portLive s = true) :
    hostWrite s f = f (answer 0 false s) := by
  simp [hostWrite, onlyIf, h]

theorem hostWrite_dead (s : State) (f : State → State) (h : portLive s = false) : hostWrite s f = answer 0 false s := by
  simp [hostWrite, onlyIf, h]

end Sys2Proof.Machine
end

