-- ==== Sys2Proof/Laws/State.lean ====
section
/-! SUPPORT. State.lean: what each plain update leaves alone, and what it leaves where it writes. -/

namespace Sys2Proof.Machine

/-- The parts that logging may change. -/
def logTouch : Touch := { log := true, exc := true, free := true }

/-! ### Fields that an update leaves alone -/

@[simp] theorem answered_params (s : State) : (answered s).params = s.params := rfl
@[simp] theorem answered_pins (s : State) : (answered s).pins = s.pins := rfl
@[simp] theorem answered_log (s : State) : (answered s).log = s.log := rfl
@[simp] theorem answered_freeze (s : State) : (answered s).freeze = s.freeze := rfl
@[simp] theorem answered_inject (s : State) : (answered s).inject = s.inject := rfl
@[simp] theorem answered_kindle (s : State) : (answered s).kindle = s.kindle := rfl
@[simp] theorem answered_image (s : State) : (answered s).image = s.image := rfl
@[simp] theorem answered_time (s : State) : (answered s).time = s.time := rfl
@[simp] theorem answered_power (s : State) : (answered s).power = s.power := rfl
@[simp] theorem answered_step (s : State) : (answered s).step = s.step := rfl
@[simp] theorem answered_faults (s : State) : (answered s).faults = s.faults := rfl
@[simp] theorem answered_kiln (s : State) : (answered s).kiln = s.kiln := rfl
@[simp] theorem answered_leaves (s : State) : (answered s).leaves = s.leaves := rfl
@[simp] theorem answered_shadows (s : State) : (answered s).shadows = s.shadows := rfl
@[simp] theorem answered_links (s : State) : (answered s).links = s.links := rfl
@[simp] theorem answered_fabric (s : State) : (answered s).fabric = s.fabric := rfl
@[simp] theorem answered_tables (s : State) : (answered s).tables = s.tables := rfl
@[simp] theorem answered_ctr (s : State) : (answered s).ctr = s.ctr := rfl
@[simp] theorem answered_inbox (s : State) : (answered s).inbox = s.inbox := rfl
@[simp] theorem answered_free (s : State) : (answered s).free = s.free := rfl
@[simp] theorem answered_pending (s : State) : (answered s).pending = s.pending := rfl

@[simp] theorem answer_params (d : Word) (e : Bool) (s : State) : (answer d e s).params = s.params := rfl
@[simp] theorem answer_pins (d : Word) (e : Bool) (s : State) : (answer d e s).pins = s.pins := rfl
@[simp] theorem answer_log (d : Word) (e : Bool) (s : State) : (answer d e s).log = s.log := rfl
@[simp] theorem answer_freeze (d : Word) (e : Bool) (s : State) : (answer d e s).freeze = s.freeze := rfl
@[simp] theorem answer_inject (d : Word) (e : Bool) (s : State) : (answer d e s).inject = s.inject := rfl
@[simp] theorem answer_kindle (d : Word) (e : Bool) (s : State) : (answer d e s).kindle = s.kindle := rfl
@[simp] theorem answer_image (d : Word) (e : Bool) (s : State) : (answer d e s).image = s.image := rfl
@[simp] theorem answer_time (d : Word) (e : Bool) (s : State) : (answer d e s).time = s.time := rfl
@[simp] theorem answer_power (d : Word) (e : Bool) (s : State) : (answer d e s).power = s.power := rfl
@[simp] theorem answer_step (d : Word) (e : Bool) (s : State) : (answer d e s).step = s.step := rfl
@[simp] theorem answer_faults (d : Word) (e : Bool) (s : State) : (answer d e s).faults = s.faults := rfl
@[simp] theorem answer_kiln (d : Word) (e : Bool) (s : State) : (answer d e s).kiln = s.kiln := rfl
@[simp] theorem answer_leaves (d : Word) (e : Bool) (s : State) : (answer d e s).leaves = s.leaves := rfl
@[simp] theorem answer_shadows (d : Word) (e : Bool) (s : State) : (answer d e s).shadows = s.shadows := rfl
@[simp] theorem answer_links (d : Word) (e : Bool) (s : State) : (answer d e s).links = s.links := rfl
@[simp] theorem answer_fabric (d : Word) (e : Bool) (s : State) : (answer d e s).fabric = s.fabric := rfl
@[simp] theorem answer_tables (d : Word) (e : Bool) (s : State) : (answer d e s).tables = s.tables := rfl
@[simp] theorem answer_ctr (d : Word) (e : Bool) (s : State) : (answer d e s).ctr = s.ctr := rfl
@[simp] theorem answer_inbox (d : Word) (e : Bool) (s : State) : (answer d e s).inbox = s.inbox := rfl
@[simp] theorem answer_free (d : Word) (e : Bool) (s : State) : (answer d e s).free = s.free := rfl
@[simp] theorem answer_pending (d : Word) (e : Bool) (s : State) : (answer d e s).pending = s.pending := rfl

@[simp] theorem ctrAdd_params (o k : Nat) (s : State) : (ctrAdd o k s).params = s.params := rfl
@[simp] theorem ctrAdd_pins (o k : Nat) (s : State) : (ctrAdd o k s).pins = s.pins := rfl
@[simp] theorem ctrAdd_rp (o k : Nat) (s : State) : (ctrAdd o k s).rp = s.rp := rfl
@[simp] theorem ctrAdd_log (o k : Nat) (s : State) : (ctrAdd o k s).log = s.log := rfl
@[simp] theorem ctrAdd_freeze (o k : Nat) (s : State) : (ctrAdd o k s).freeze = s.freeze := rfl
@[simp] theorem ctrAdd_inject (o k : Nat) (s : State) : (ctrAdd o k s).inject = s.inject := rfl
@[simp] theorem ctrAdd_kindle (o k : Nat) (s : State) : (ctrAdd o k s).kindle = s.kindle := rfl
@[simp] theorem ctrAdd_image (o k : Nat) (s : State) : (ctrAdd o k s).image = s.image := rfl
@[simp] theorem ctrAdd_time (o k : Nat) (s : State) : (ctrAdd o k s).time = s.time := rfl
@[simp] theorem ctrAdd_power (o k : Nat) (s : State) : (ctrAdd o k s).power = s.power := rfl
@[simp] theorem ctrAdd_step (o k : Nat) (s : State) : (ctrAdd o k s).step = s.step := rfl
@[simp] theorem ctrAdd_faults (o k : Nat) (s : State) : (ctrAdd o k s).faults = s.faults := rfl
@[simp] theorem ctrAdd_kiln (o k : Nat) (s : State) : (ctrAdd o k s).kiln = s.kiln := rfl
@[simp] theorem ctrAdd_leaves (o k : Nat) (s : State) : (ctrAdd o k s).leaves = s.leaves := rfl
@[simp] theorem ctrAdd_shadows (o k : Nat) (s : State) : (ctrAdd o k s).shadows = s.shadows := rfl
@[simp] theorem ctrAdd_links (o k : Nat) (s : State) : (ctrAdd o k s).links = s.links := rfl
@[simp] theorem ctrAdd_fabric (o k : Nat) (s : State) : (ctrAdd o k s).fabric = s.fabric := rfl
@[simp] theorem ctrAdd_tables (o k : Nat) (s : State) : (ctrAdd o k s).tables = s.tables := rfl
@[simp] theorem ctrAdd_inbox (o k : Nat) (s : State) : (ctrAdd o k s).inbox = s.inbox := rfl
@[simp] theorem ctrAdd_free (o k : Nat) (s : State) : (ctrAdd o k s).free = s.free := rfl
@[simp] theorem ctrAdd_pending (o k : Nat) (s : State) : (ctrAdd o k s).pending = s.pending := rfl

@[simp] theorem setDom_params (d : Nat) (f : Dom → Dom) (s : State) : (setDom d f s).params = s.params := rfl
@[simp] theorem setDom_pins (d : Nat) (f : Dom → Dom) (s : State) : (setDom d f s).pins = s.pins := rfl
@[simp] theorem setDom_rp (d : Nat) (f : Dom → Dom) (s : State) : (setDom d f s).rp = s.rp := rfl
@[simp] theorem setDom_log (d : Nat) (f : Dom → Dom) (s : State) : (setDom d f s).log = s.log := rfl
@[simp] theorem setDom_freeze (d : Nat) (f : Dom → Dom) (s : State) : (setDom d f s).freeze = s.freeze := rfl
@[simp] theorem setDom_inject (d : Nat) (f : Dom → Dom) (s : State) : (setDom d f s).inject = s.inject := rfl
@[simp] theorem setDom_kindle (d : Nat) (f : Dom → Dom) (s : State) : (setDom d f s).kindle = s.kindle := rfl
@[simp] theorem setDom_image (d : Nat) (f : Dom → Dom) (s : State) : (setDom d f s).image = s.image := rfl
@[simp] theorem setDom_time (d : Nat) (f : Dom → Dom) (s : State) : (setDom d f s).time = s.time := rfl
@[simp] theorem setDom_step (d : Nat) (f : Dom → Dom) (s : State) : (setDom d f s).step = s.step := rfl
@[simp] theorem setDom_faults (d : Nat) (f : Dom → Dom) (s : State) : (setDom d f s).faults = s.faults := rfl
@[simp] theorem setDom_kiln (d : Nat) (f : Dom → Dom) (s : State) : (setDom d f s).kiln = s.kiln := rfl
@[simp] theorem setDom_leaves (d : Nat) (f : Dom → Dom) (s : State) : (setDom d f s).leaves = s.leaves := rfl
@[simp] theorem setDom_shadows (d : Nat) (f : Dom → Dom) (s : State) : (setDom d f s).shadows = s.shadows := rfl
@[simp] theorem setDom_links (d : Nat) (f : Dom → Dom) (s : State) : (setDom d f s).links = s.links := rfl
@[simp] theorem setDom_fabric (d : Nat) (f : Dom → Dom) (s : State) : (setDom d f s).fabric = s.fabric := rfl
@[simp] theorem setDom_tables (d : Nat) (f : Dom → Dom) (s : State) : (setDom d f s).tables = s.tables := rfl
@[simp] theorem setDom_ctr (d : Nat) (f : Dom → Dom) (s : State) : (setDom d f s).ctr = s.ctr := rfl
@[simp] theorem setDom_inbox (d : Nat) (f : Dom → Dom) (s : State) : (setDom d f s).inbox = s.inbox := rfl
@[simp] theorem setDom_free (d : Nat) (f : Dom → Dom) (s : State) : (setDom d f s).free = s.free := rfl
@[simp] theorem setDom_pending (d : Nat) (f : Dom → Dom) (s : State) : (setDom d f s).pending = s.pending := rfl

@[simp] theorem setLeaf_params (t : Nat) (f : Leaf → Leaf) (s : State) : (setLeaf t f s).params = s.params := rfl
@[simp] theorem setLeaf_pins (t : Nat) (f : Leaf → Leaf) (s : State) : (setLeaf t f s).pins = s.pins := rfl
@[simp] theorem setLeaf_rp (t : Nat) (f : Leaf → Leaf) (s : State) : (setLeaf t f s).rp = s.rp := rfl
@[simp] theorem setLeaf_log (t : Nat) (f : Leaf → Leaf) (s : State) : (setLeaf t f s).log = s.log := rfl
@[simp] theorem setLeaf_freeze (t : Nat) (f : Leaf → Leaf) (s : State) : (setLeaf t f s).freeze = s.freeze := rfl
@[simp] theorem setLeaf_inject (t : Nat) (f : Leaf → Leaf) (s : State) : (setLeaf t f s).inject = s.inject := rfl
@[simp] theorem setLeaf_kindle (t : Nat) (f : Leaf → Leaf) (s : State) : (setLeaf t f s).kindle = s.kindle := rfl
@[simp] theorem setLeaf_image (t : Nat) (f : Leaf → Leaf) (s : State) : (setLeaf t f s).image = s.image := rfl
@[simp] theorem setLeaf_time (t : Nat) (f : Leaf → Leaf) (s : State) : (setLeaf t f s).time = s.time := rfl
@[simp] theorem setLeaf_power (t : Nat) (f : Leaf → Leaf) (s : State) : (setLeaf t f s).power = s.power := rfl
@[simp] theorem setLeaf_step (t : Nat) (f : Leaf → Leaf) (s : State) : (setLeaf t f s).step = s.step := rfl
@[simp] theorem setLeaf_faults (t : Nat) (f : Leaf → Leaf) (s : State) : (setLeaf t f s).faults = s.faults := rfl
@[simp] theorem setLeaf_kiln (t : Nat) (f : Leaf → Leaf) (s : State) : (setLeaf t f s).kiln = s.kiln := rfl
@[simp] theorem setLeaf_shadows (t : Nat) (f : Leaf → Leaf) (s : State) : (setLeaf t f s).shadows = s.shadows := rfl
@[simp] theorem setLeaf_links (t : Nat) (f : Leaf → Leaf) (s : State) : (setLeaf t f s).links = s.links := rfl
@[simp] theorem setLeaf_fabric (t : Nat) (f : Leaf → Leaf) (s : State) : (setLeaf t f s).fabric = s.fabric := rfl
@[simp] theorem setLeaf_tables (t : Nat) (f : Leaf → Leaf) (s : State) : (setLeaf t f s).tables = s.tables := rfl
@[simp] theorem setLeaf_ctr (t : Nat) (f : Leaf → Leaf) (s : State) : (setLeaf t f s).ctr = s.ctr := rfl
@[simp] theorem setLeaf_inbox (t : Nat) (f : Leaf → Leaf) (s : State) : (setLeaf t f s).inbox = s.inbox := rfl
@[simp] theorem setLeaf_free (t : Nat) (f : Leaf → Leaf) (s : State) : (setLeaf t f s).free = s.free := rfl
@[simp] theorem setLeaf_pending (t : Nat) (f : Leaf → Leaf) (s : State) : (setLeaf t f s).pending = s.pending := rfl

@[simp] theorem setLink_params (k : Nat) (f : LinkSt → LinkSt) (s : State) : (setLink k f s).params = s.params := rfl
@[simp] theorem setLink_pins (k : Nat) (f : LinkSt → LinkSt) (s : State) : (setLink k f s).pins = s.pins := rfl
@[simp] theorem setLink_rp (k : Nat) (f : LinkSt → LinkSt) (s : State) : (setLink k f s).rp = s.rp := rfl
@[simp] theorem setLink_log (k : Nat) (f : LinkSt → LinkSt) (s : State) : (setLink k f s).log = s.log := rfl
@[simp] theorem setLink_freeze (k : Nat) (f : LinkSt → LinkSt) (s : State) : (setLink k f s).freeze = s.freeze := rfl
@[simp] theorem setLink_inject (k : Nat) (f : LinkSt → LinkSt) (s : State) : (setLink k f s).inject = s.inject := rfl
@[simp] theorem setLink_kindle (k : Nat) (f : LinkSt → LinkSt) (s : State) : (setLink k f s).kindle = s.kindle := rfl
@[simp] theorem setLink_image (k : Nat) (f : LinkSt → LinkSt) (s : State) : (setLink k f s).image = s.image := rfl
@[simp] theorem setLink_time (k : Nat) (f : LinkSt → LinkSt) (s : State) : (setLink k f s).time = s.time := rfl
@[simp] theorem setLink_power (k : Nat) (f : LinkSt → LinkSt) (s : State) : (setLink k f s).power = s.power := rfl
@[simp] theorem setLink_step (k : Nat) (f : LinkSt → LinkSt) (s : State) : (setLink k f s).step = s.step := rfl
@[simp] theorem setLink_faults (k : Nat) (f : LinkSt → LinkSt) (s : State) : (setLink k f s).faults = s.faults := rfl
@[simp] theorem setLink_kiln (k : Nat) (f : LinkSt → LinkSt) (s : State) : (setLink k f s).kiln = s.kiln := rfl
@[simp] theorem setLink_leaves (k : Nat) (f : LinkSt → LinkSt) (s : State) : (setLink k f s).leaves = s.leaves := rfl
@[simp] theorem setLink_shadows (k : Nat) (f : LinkSt → LinkSt) (s : State) : (setLink k f s).shadows = s.shadows := rfl
@[simp] theorem setLink_fabric (k : Nat) (f : LinkSt → LinkSt) (s : State) : (setLink k f s).fabric = s.fabric := rfl
@[simp] theorem setLink_tables (k : Nat) (f : LinkSt → LinkSt) (s : State) : (setLink k f s).tables = s.tables := rfl
@[simp] theorem setLink_ctr (k : Nat) (f : LinkSt → LinkSt) (s : State) : (setLink k f s).ctr = s.ctr := rfl
@[simp] theorem setLink_inbox (k : Nat) (f : LinkSt → LinkSt) (s : State) : (setLink k f s).inbox = s.inbox := rfl
@[simp] theorem setLink_free (k : Nat) (f : LinkSt → LinkSt) (s : State) : (setLink k f s).free = s.free := rfl
@[simp] theorem setLink_pending (k : Nat) (f : LinkSt → LinkSt) (s : State) : (setLink k f s).pending = s.pending := rfl

@[simp] theorem deliver_params (a : Arrival) (s : State) : (deliver a s).params = s.params := rfl
@[simp] theorem deliver_pins (a : Arrival) (s : State) : (deliver a s).pins = s.pins := rfl
@[simp] theorem deliver_rp (a : Arrival) (s : State) : (deliver a s).rp = s.rp := rfl
@[simp] theorem deliver_log (a : Arrival) (s : State) : (deliver a s).log = s.log := rfl
@[simp] theorem deliver_freeze (a : Arrival) (s : State) : (deliver a s).freeze = s.freeze := rfl
@[simp] theorem deliver_inject (a : Arrival) (s : State) : (deliver a s).inject = s.inject := rfl
@[simp] theorem deliver_kindle (a : Arrival) (s : State) : (deliver a s).kindle = s.kindle := rfl
@[simp] theorem deliver_image (a : Arrival) (s : State) : (deliver a s).image = s.image := rfl
@[simp] theorem deliver_time (a : Arrival) (s : State) : (deliver a s).time = s.time := rfl
@[simp] theorem deliver_power (a : Arrival) (s : State) : (deliver a s).power = s.power := rfl
@[simp] theorem deliver_step (a : Arrival) (s : State) : (deliver a s).step = s.step := rfl
@[simp] theorem deliver_faults (a : Arrival) (s : State) : (deliver a s).faults = s.faults := rfl
@[simp] theorem deliver_kiln (a : Arrival) (s : State) : (deliver a s).kiln = s.kiln := rfl
@[simp] theorem deliver_leaves (a : Arrival) (s : State) : (deliver a s).leaves = s.leaves := rfl
@[simp] theorem deliver_shadows (a : Arrival) (s : State) : (deliver a s).shadows = s.shadows := rfl
@[simp] theorem deliver_links (a : Arrival) (s : State) : (deliver a s).links = s.links := rfl
@[simp] theorem deliver_fabric (a : Arrival) (s : State) : (deliver a s).fabric = s.fabric := rfl
@[simp] theorem deliver_tables (a : Arrival) (s : State) : (deliver a s).tables = s.tables := rfl
@[simp] theorem deliver_ctr (a : Arrival) (s : State) : (deliver a s).ctr = s.ctr := rfl
@[simp] theorem deliver_free (a : Arrival) (s : State) : (deliver a s).free = s.free := rfl
@[simp] theorem deliver_pending (a : Arrival) (s : State) : (deliver a s).pending = s.pending := rfl

@[simp] theorem setPend_params (m : BitVec 8) (s : State) : (setPend m s).params = s.params := rfl
@[simp] theorem setPend_pins (m : BitVec 8) (s : State) : (setPend m s).pins = s.pins := rfl
@[simp] theorem setPend_rp (m : BitVec 8) (s : State) : (setPend m s).rp = s.rp := rfl
@[simp] theorem setPend_log (m : BitVec 8) (s : State) : (setPend m s).log = s.log := rfl
@[simp] theorem setPend_freeze (m : BitVec 8) (s : State) : (setPend m s).freeze = s.freeze := rfl
@[simp] theorem setPend_inject (m : BitVec 8) (s : State) : (setPend m s).inject = s.inject := rfl
@[simp] theorem setPend_kindle (m : BitVec 8) (s : State) : (setPend m s).kindle = s.kindle := rfl
@[simp] theorem setPend_image (m : BitVec 8) (s : State) : (setPend m s).image = s.image := rfl
@[simp] theorem setPend_time (m : BitVec 8) (s : State) : (setPend m s).time = s.time := rfl
@[simp] theorem setPend_power (m : BitVec 8) (s : State) : (setPend m s).power = s.power := rfl
@[simp] theorem setPend_step (m : BitVec 8) (s : State) : (setPend m s).step = s.step := rfl
@[simp] theorem setPend_kiln (m : BitVec 8) (s : State) : (setPend m s).kiln = s.kiln := rfl
@[simp] theorem setPend_leaves (m : BitVec 8) (s : State) : (setPend m s).leaves = s.leaves := rfl
@[simp] theorem setPend_shadows (m : BitVec 8) (s : State) : (setPend m s).shadows = s.shadows := rfl
@[simp] theorem setPend_links (m : BitVec 8) (s : State) : (setPend m s).links = s.links := rfl
@[simp] theorem setPend_fabric (m : BitVec 8) (s : State) : (setPend m s).fabric = s.fabric := rfl
@[simp] theorem setPend_tables (m : BitVec 8) (s : State) : (setPend m s).tables = s.tables := rfl
@[simp] theorem setPend_ctr (m : BitVec 8) (s : State) : (setPend m s).ctr = s.ctr := rfl
@[simp] theorem setPend_inbox (m : BitVec 8) (s : State) : (setPend m s).inbox = s.inbox := rfl
@[simp] theorem setPend_free (m : BitVec 8) (s : State) : (setPend m s).free = s.free := rfl
@[simp] theorem setPend_pending (m : BitVec 8) (s : State) : (setPend m s).pending = s.pending := rfl

@[simp] theorem countIgnored_params (o : Nat) (s : State) : (countIgnored o s).params = s.params := rfl
@[simp] theorem countIgnored_pins (o : Nat) (s : State) : (countIgnored o s).pins = s.pins := rfl
@[simp] theorem countIgnored_log (o : Nat) (s : State) : (countIgnored o s).log = s.log := rfl
@[simp] theorem countIgnored_freeze (o : Nat) (s : State) : (countIgnored o s).freeze = s.freeze := rfl
@[simp] theorem countIgnored_inject (o : Nat) (s : State) : (countIgnored o s).inject = s.inject := rfl
@[simp] theorem countIgnored_kindle (o : Nat) (s : State) : (countIgnored o s).kindle = s.kindle := rfl
@[simp] theorem countIgnored_image (o : Nat) (s : State) : (countIgnored o s).image = s.image := rfl
@[simp] theorem countIgnored_time (o : Nat) (s : State) : (countIgnored o s).time = s.time := rfl
@[simp] theorem countIgnored_power (o : Nat) (s : State) : (countIgnored o s).power = s.power := rfl
@[simp] theorem countIgnored_step (o : Nat) (s : State) : (countIgnored o s).step = s.step := rfl
@[simp] theorem countIgnored_faults (o : Nat) (s : State) : (countIgnored o s).faults = s.faults := rfl
@[simp] theorem countIgnored_kiln (o : Nat) (s : State) : (countIgnored o s).kiln = s.kiln := rfl
@[simp] theorem countIgnored_leaves (o : Nat) (s : State) : (countIgnored o s).leaves = s.leaves := rfl
@[simp] theorem countIgnored_shadows (o : Nat) (s : State) : (countIgnored o s).shadows = s.shadows := rfl
@[simp] theorem countIgnored_links (o : Nat) (s : State) : (countIgnored o s).links = s.links := rfl
@[simp] theorem countIgnored_fabric (o : Nat) (s : State) : (countIgnored o s).fabric = s.fabric := rfl
@[simp] theorem countIgnored_tables (o : Nat) (s : State) : (countIgnored o s).tables = s.tables := rfl
@[simp] theorem countIgnored_ctr (o : Nat) (s : State) : (countIgnored o s).ctr = s.ctr := rfl
@[simp] theorem countIgnored_inbox (o : Nat) (s : State) : (countIgnored o s).inbox = s.inbox := rfl
@[simp] theorem countIgnored_free (o : Nat) (s : State) : (countIgnored o s).free = s.free := rfl
@[simp] theorem countIgnored_pending (o : Nat) (s : State) : (countIgnored o s).pending = s.pending := rfl

@[simp] theorem modNode_params (p : Nat) (n : NodeId) (f : NodeInst → NodeInst) (s : State) : (modNode p n f s).params = s.params := rfl
@[simp] theorem modNode_pins (p : Nat) (n : NodeId) (f : NodeInst → NodeInst) (s : State) : (modNode p n f s).pins = s.pins := rfl
@[simp] theorem modNode_rp (p : Nat) (n : NodeId) (f : NodeInst → NodeInst) (s : State) : (modNode p n f s).rp = s.rp := rfl
@[simp] theorem modNode_log (p : Nat) (n : NodeId) (f : NodeInst → NodeInst) (s : State) : (modNode p n f s).log = s.log := rfl
@[simp] theorem modNode_freeze (p : Nat) (n : NodeId) (f : NodeInst → NodeInst) (s : State) : (modNode p n f s).freeze = s.freeze := rfl
@[simp] theorem modNode_inject (p : Nat) (n : NodeId) (f : NodeInst → NodeInst) (s : State) : (modNode p n f s).inject = s.inject := rfl
@[simp] theorem modNode_kindle (p : Nat) (n : NodeId) (f : NodeInst → NodeInst) (s : State) : (modNode p n f s).kindle = s.kindle := rfl
@[simp] theorem modNode_image (p : Nat) (n : NodeId) (f : NodeInst → NodeInst) (s : State) : (modNode p n f s).image = s.image := rfl
@[simp] theorem modNode_time (p : Nat) (n : NodeId) (f : NodeInst → NodeInst) (s : State) : (modNode p n f s).time = s.time := rfl
@[simp] theorem modNode_power (p : Nat) (n : NodeId) (f : NodeInst → NodeInst) (s : State) : (modNode p n f s).power = s.power := rfl
@[simp] theorem modNode_step (p : Nat) (n : NodeId) (f : NodeInst → NodeInst) (s : State) : (modNode p n f s).step = s.step := rfl
@[simp] theorem modNode_faults (p : Nat) (n : NodeId) (f : NodeInst → NodeInst) (s : State) : (modNode p n f s).faults = s.faults := rfl
@[simp] theorem modNode_leaves (p : Nat) (n : NodeId) (f : NodeInst → NodeInst) (s : State) : (modNode p n f s).leaves = s.leaves := rfl
@[simp] theorem modNode_shadows (p : Nat) (n : NodeId) (f : NodeInst → NodeInst) (s : State) : (modNode p n f s).shadows = s.shadows := rfl
@[simp] theorem modNode_links (p : Nat) (n : NodeId) (f : NodeInst → NodeInst) (s : State) : (modNode p n f s).links = s.links := rfl
@[simp] theorem modNode_fabric (p : Nat) (n : NodeId) (f : NodeInst → NodeInst) (s : State) : (modNode p n f s).fabric = s.fabric := rfl
@[simp] theorem modNode_tables (p : Nat) (n : NodeId) (f : NodeInst → NodeInst) (s : State) : (modNode p n f s).tables = s.tables := rfl
@[simp] theorem modNode_ctr (p : Nat) (n : NodeId) (f : NodeInst → NodeInst) (s : State) : (modNode p n f s).ctr = s.ctr := rfl
@[simp] theorem modNode_inbox (p : Nat) (n : NodeId) (f : NodeInst → NodeInst) (s : State) : (modNode p n f s).inbox = s.inbox := rfl
@[simp] theorem modNode_free (p : Nat) (n : NodeId) (f : NodeInst → NodeInst) (s : State) : (modNode p n f s).free = s.free := rfl
@[simp] theorem modNode_pending (p : Nat) (n : NodeId) (f : NodeInst → NodeInst) (s : State) : (modNode p n f s).pending = s.pending := rfl

@[simp] theorem modOpen_params (p : Nat) (n : NodeId) (c : Nat) (f : OpenCord → OpenCord) (s : State) : (modOpen p n c f s).params = s.params := rfl
@[simp] theorem modOpen_pins (p : Nat) (n : NodeId) (c : Nat) (f : OpenCord → OpenCord) (s : State) : (modOpen p n c f s).pins = s.pins := rfl
@[simp] theorem modOpen_rp (p : Nat) (n : NodeId) (c : Nat) (f : OpenCord → OpenCord) (s : State) : (modOpen p n c f s).rp = s.rp := rfl
@[simp] theorem modOpen_log (p : Nat) (n : NodeId) (c : Nat) (f : OpenCord → OpenCord) (s : State) : (modOpen p n c f s).log = s.log := rfl
@[simp] theorem modOpen_freeze (p : Nat) (n : NodeId) (c : Nat) (f : OpenCord → OpenCord) (s : State) : (modOpen p n c f s).freeze = s.freeze := rfl
@[simp] theorem modOpen_inject (p : Nat) (n : NodeId) (c : Nat) (f : OpenCord → OpenCord) (s : State) : (modOpen p n c f s).inject = s.inject := rfl
@[simp] theorem modOpen_kindle (p : Nat) (n : NodeId) (c : Nat) (f : OpenCord → OpenCord) (s : State) : (modOpen p n c f s).kindle = s.kindle := rfl
@[simp] theorem modOpen_image (p : Nat) (n : NodeId) (c : Nat) (f : OpenCord → OpenCord) (s : State) : (modOpen p n c f s).image = s.image := rfl
@[simp] theorem modOpen_time (p : Nat) (n : NodeId) (c : Nat) (f : OpenCord → OpenCord) (s : State) : (modOpen p n c f s).time = s.time := rfl
@[simp] theorem modOpen_power (p : Nat) (n : NodeId) (c : Nat) (f : OpenCord → OpenCord) (s : State) : (modOpen p n c f s).power = s.power := rfl
@[simp] theorem modOpen_step (p : Nat) (n : NodeId) (c : Nat) (f : OpenCord → OpenCord) (s : State) : (modOpen p n c f s).step = s.step := rfl
@[simp] theorem modOpen_faults (p : Nat) (n : NodeId) (c : Nat) (f : OpenCord → OpenCord) (s : State) : (modOpen p n c f s).faults = s.faults := rfl
@[simp] theorem modOpen_leaves (p : Nat) (n : NodeId) (c : Nat) (f : OpenCord → OpenCord) (s : State) : (modOpen p n c f s).leaves = s.leaves := rfl
@[simp] theorem modOpen_shadows (p : Nat) (n : NodeId) (c : Nat) (f : OpenCord → OpenCord) (s : State) :
    (modOpen p n c f s).shadows = s.shadows := rfl
@[simp] theorem modOpen_links (p : Nat) (n : NodeId) (c : Nat) (f : OpenCord → OpenCord) (s : State) : (modOpen p n c f s).links = s.links := rfl
@[simp] theorem modOpen_fabric (p : Nat) (n : NodeId) (c : Nat) (f : OpenCord → OpenCord) (s : State) : (modOpen p n c f s).fabric = s.fabric := rfl
@[simp] theorem modOpen_tables (p : Nat) (n : NodeId) (c : Nat) (f : OpenCord → OpenCord) (s : State) : (modOpen p n c f s).tables = s.tables := rfl
@[simp] theorem modOpen_ctr (p : Nat) (n : NodeId) (c : Nat) (f : OpenCord → OpenCord) (s : State) : (modOpen p n c f s).ctr = s.ctr := rfl
@[simp] theorem modOpen_inbox (p : Nat) (n : NodeId) (c : Nat) (f : OpenCord → OpenCord) (s : State) : (modOpen p n c f s).inbox = s.inbox := rfl
@[simp] theorem modOpen_free (p : Nat) (n : NodeId) (c : Nat) (f : OpenCord → OpenCord) (s : State) : (modOpen p n c f s).free = s.free := rfl
@[simp] theorem modOpen_pending (p : Nat) (n : NodeId) (c : Nat) (f : OpenCord → OpenCord) (s : State) :
    (modOpen p n c f s).pending = s.pending := rfl

@[simp] theorem noteProgress_params (k : Nat) (s : State) : (noteProgress k s).params = s.params := rfl
@[simp] theorem noteProgress_pins (k : Nat) (s : State) : (noteProgress k s).pins = s.pins := rfl
@[simp] theorem noteProgress_rp (k : Nat) (s : State) : (noteProgress k s).rp = s.rp := rfl
@[simp] theorem noteProgress_log (k : Nat) (s : State) : (noteProgress k s).log = s.log := rfl
@[simp] theorem noteProgress_freeze (k : Nat) (s : State) : (noteProgress k s).freeze = s.freeze := rfl
@[simp] theorem noteProgress_inject (k : Nat) (s : State) : (noteProgress k s).inject = s.inject := rfl
@[simp] theorem noteProgress_kindle (k : Nat) (s : State) : (noteProgress k s).kindle = s.kindle := rfl
@[simp] theorem noteProgress_image (k : Nat) (s : State) : (noteProgress k s).image = s.image := rfl
@[simp] theorem noteProgress_time (k : Nat) (s : State) : (noteProgress k s).time = s.time := rfl
@[simp] theorem noteProgress_power (k : Nat) (s : State) : (noteProgress k s).power = s.power := rfl
@[simp] theorem noteProgress_step (k : Nat) (s : State) : (noteProgress k s).step = s.step := rfl
@[simp] theorem noteProgress_kiln (k : Nat) (s : State) : (noteProgress k s).kiln = s.kiln := rfl
@[simp] theorem noteProgress_leaves (k : Nat) (s : State) : (noteProgress k s).leaves = s.leaves := rfl
@[simp] theorem noteProgress_shadows (k : Nat) (s : State) : (noteProgress k s).shadows = s.shadows := rfl
@[simp] theorem noteProgress_links (k : Nat) (s : State) : (noteProgress k s).links = s.links := rfl
@[simp] theorem noteProgress_fabric (k : Nat) (s : State) : (noteProgress k s).fabric = s.fabric := rfl
@[simp] theorem noteProgress_tables (k : Nat) (s : State) : (noteProgress k s).tables = s.tables := rfl
@[simp] theorem noteProgress_ctr (k : Nat) (s : State) : (noteProgress k s).ctr = s.ctr := rfl
@[simp] theorem noteProgress_inbox (k : Nat) (s : State) : (noteProgress k s).inbox = s.inbox := rfl
@[simp] theorem noteProgress_free (k : Nat) (s : State) : (noteProgress k s).free = s.free := rfl
@[simp] theorem noteProgress_pending (k : Nat) (s : State) : (noteProgress k s).pending = s.pending := rfl

@[simp] theorem park_params (u i l v : Nat) (b : Body) (g : Bool) (s : State) : (park u i l v b g s).params = s.params := rfl
@[simp] theorem park_pins (u i l v : Nat) (b : Body) (g : Bool) (s : State) : (park u i l v b g s).pins = s.pins := rfl
@[simp] theorem park_rp (u i l v : Nat) (b : Body) (g : Bool) (s : State) : (park u i l v b g s).rp = s.rp := rfl
@[simp] theorem park_log (u i l v : Nat) (b : Body) (g : Bool) (s : State) : (park u i l v b g s).log = s.log := rfl
@[simp] theorem park_freeze (u i l v : Nat) (b : Body) (g : Bool) (s : State) : (park u i l v b g s).freeze = s.freeze := rfl
@[simp] theorem park_inject (u i l v : Nat) (b : Body) (g : Bool) (s : State) : (park u i l v b g s).inject = s.inject := rfl
@[simp] theorem park_kindle (u i l v : Nat) (b : Body) (g : Bool) (s : State) : (park u i l v b g s).kindle = s.kindle := rfl
@[simp] theorem park_image (u i l v : Nat) (b : Body) (g : Bool) (s : State) : (park u i l v b g s).image = s.image := rfl
@[simp] theorem park_time (u i l v : Nat) (b : Body) (g : Bool) (s : State) : (park u i l v b g s).time = s.time := rfl
@[simp] theorem park_power (u i l v : Nat) (b : Body) (g : Bool) (s : State) : (park u i l v b g s).power = s.power := rfl
@[simp] theorem park_step (u i l v : Nat) (b : Body) (g : Bool) (s : State) : (park u i l v b g s).step = s.step := rfl
@[simp] theorem park_faults (u i l v : Nat) (b : Body) (g : Bool) (s : State) : (park u i l v b g s).faults = s.faults := rfl
@[simp] theorem park_kiln (u i l v : Nat) (b : Body) (g : Bool) (s : State) : (park u i l v b g s).kiln = s.kiln := rfl
@[simp] theorem park_leaves (u i l v : Nat) (b : Body) (g : Bool) (s : State) : (park u i l v b g s).leaves = s.leaves := rfl
@[simp] theorem park_shadows (u i l v : Nat) (b : Body) (g : Bool) (s : State) : (park u i l v b g s).shadows = s.shadows := rfl
@[simp] theorem park_links (u i l v : Nat) (b : Body) (g : Bool) (s : State) : (park u i l v b g s).links = s.links := rfl
@[simp] theorem park_tables (u i l v : Nat) (b : Body) (g : Bool) (s : State) : (park u i l v b g s).tables = s.tables := rfl
@[simp] theorem park_ctr (u i l v : Nat) (b : Body) (g : Bool) (s : State) : (park u i l v b g s).ctr = s.ctr := rfl
@[simp] theorem park_inbox (u i l v : Nat) (b : Body) (g : Bool) (s : State) : (park u i l v b g s).inbox = s.inbox := rfl
@[simp] theorem park_free (u i l v : Nat) (b : Body) (g : Bool) (s : State) : (park u i l v b g s).free = s.free := rfl
@[simp] theorem park_pending (u i l v : Nat) (b : Body) (g : Bool) (s : State) : (park u i l v b g s).pending = s.pending := rfl

@[simp] theorem timed_params (s t : State) : (timed s t).params = s.params := rfl
@[simp] theorem timed_pins (s t : State) : (timed s t).pins = s.pins := rfl
@[simp] theorem timed_rp (s t : State) : (timed s t).rp = s.rp := rfl
@[simp] theorem timed_log (s t : State) : (timed s t).log = s.log := rfl
@[simp] theorem timed_freeze (s t : State) : (timed s t).freeze = s.freeze := rfl
@[simp] theorem timed_inject (s t : State) : (timed s t).inject = s.inject := rfl
@[simp] theorem timed_kindle (s t : State) : (timed s t).kindle = s.kindle := rfl
@[simp] theorem timed_image (s t : State) : (timed s t).image = s.image := rfl
@[simp] theorem timed_time (s t : State) : (timed s t).time = s.time := rfl
@[simp] theorem timed_power (s t : State) : (timed s t).power = s.power := rfl
@[simp] theorem timed_step (s t : State) : (timed s t).step = s.step := rfl
@[simp] theorem timed_kiln (s t : State) : (timed s t).kiln = s.kiln := rfl
@[simp] theorem timed_leaves (s t : State) : (timed s t).leaves = s.leaves := rfl
@[simp] theorem timed_shadows (s t : State) : (timed s t).shadows = s.shadows := rfl
@[simp] theorem timed_links (s t : State) : (timed s t).links = s.links := rfl
@[simp] theorem timed_fabric (s t : State) : (timed s t).fabric = s.fabric := rfl
@[simp] theorem timed_tables (s t : State) : (timed s t).tables = s.tables := rfl
@[simp] theorem timed_ctr (s t : State) : (timed s t).ctr = s.ctr := rfl
@[simp] theorem timed_inbox (s t : State) : (timed s t).inbox = s.inbox := rfl
@[simp] theorem timed_free (s t : State) : (timed s t).free = s.free := rfl
@[simp] theorem timed_pending (s t : State) : (timed s t).pending = s.pending := rfl

@[simp] theorem instrumentOnly_params (s t : State) : (instrumentOnly s t).params = t.params := rfl
@[simp] theorem instrumentOnly_pins (s t : State) : (instrumentOnly s t).pins = t.pins := rfl
@[simp] theorem instrumentOnly_log (s t : State) : (instrumentOnly s t).log = t.log := rfl
@[simp] theorem instrumentOnly_freeze (s t : State) : (instrumentOnly s t).freeze = t.freeze := rfl
@[simp] theorem instrumentOnly_inject (s t : State) : (instrumentOnly s t).inject = t.inject := rfl
@[simp] theorem instrumentOnly_kindle (s t : State) : (instrumentOnly s t).kindle = t.kindle := rfl
@[simp] theorem instrumentOnly_image (s t : State) : (instrumentOnly s t).image = t.image := rfl
@[simp] theorem instrumentOnly_time (s t : State) : (instrumentOnly s t).time = t.time := rfl
@[simp] theorem instrumentOnly_power (s t : State) : (instrumentOnly s t).power = t.power := rfl
@[simp] theorem instrumentOnly_step (s t : State) : (instrumentOnly s t).step = t.step := rfl
@[simp] theorem instrumentOnly_faults (s t : State) : (instrumentOnly s t).faults = t.faults := rfl
@[simp] theorem instrumentOnly_kiln (s t : State) : (instrumentOnly s t).kiln = t.kiln := rfl
@[simp] theorem instrumentOnly_leaves (s t : State) : (instrumentOnly s t).leaves = t.leaves := rfl
@[simp] theorem instrumentOnly_shadows (s t : State) : (instrumentOnly s t).shadows = t.shadows := rfl
@[simp] theorem instrumentOnly_links (s t : State) : (instrumentOnly s t).links = t.links := rfl
@[simp] theorem instrumentOnly_fabric (s t : State) : (instrumentOnly s t).fabric = t.fabric := rfl
@[simp] theorem instrumentOnly_tables (s t : State) : (instrumentOnly s t).tables = t.tables := rfl
@[simp] theorem instrumentOnly_ctr (s t : State) : (instrumentOnly s t).ctr = t.ctr := rfl
@[simp] theorem instrumentOnly_inbox (s t : State) : (instrumentOnly s t).inbox = t.inbox := rfl
@[simp] theorem instrumentOnly_free (s t : State) : (instrumentOnly s t).free = t.free := rfl
@[simp] theorem instrumentOnly_pending (s t : State) : (instrumentOnly s t).pending = t.pending := rfl

@[simp] theorem logEv_params (c n a b : Nat) (s : State) : (logEv c n a b s).params = s.params :=
  (logEv_touch (T := logTouch) (Touches.refl _ s) rfl c n a b).params
@[simp] theorem logEv_pins (c n a b : Nat) (s : State) : (logEv c n a b s).pins = s.pins :=
  (logEv_touch (T := logTouch) (Touches.refl _ s) rfl c n a b).pins rfl
@[simp] theorem logEv_rp (c n a b : Nat) (s : State) : (logEv c n a b s).rp = s.rp :=
  (logEv_touch (T := logTouch) (Touches.refl _ s) rfl c n a b).rp rfl
@[simp] theorem logEv_freeze (c n a b : Nat) (s : State) : (logEv c n a b s).freeze = s.freeze :=
  (logEv_touch (T := logTouch) (Touches.refl _ s) rfl c n a b).freeze rfl
@[simp] theorem logEv_inject (c n a b : Nat) (s : State) : (logEv c n a b s).inject = s.inject :=
  (logEv_touch (T := logTouch) (Touches.refl _ s) rfl c n a b).inject rfl
@[simp] theorem logEv_kindle (c n a b : Nat) (s : State) : (logEv c n a b s).kindle = s.kindle :=
  (logEv_touch (T := logTouch) (Touches.refl _ s) rfl c n a b).kindle rfl
@[simp] theorem logEv_image (c n a b : Nat) (s : State) : (logEv c n a b s).image = s.image :=
  (logEv_touch (T := logTouch) (Touches.refl _ s) rfl c n a b).image rfl
@[simp] theorem logEv_power (c n a b : Nat) (s : State) : (logEv c n a b s).power = s.power :=
  (logEv_touch (T := logTouch) (Touches.refl _ s) rfl c n a b).power rfl
@[simp] theorem logEv_step (c n a b : Nat) (s : State) : (logEv c n a b s).step = s.step :=
  (logEv_touch (T := logTouch) (Touches.refl _ s) rfl c n a b).step rfl rfl
@[simp] theorem logEv_faults (c n a b : Nat) (s : State) : (logEv c n a b s).faults = s.faults :=
  (logEv_touch (T := logTouch) (Touches.refl _ s) rfl c n a b).faults rfl
@[simp] theorem logEv_kiln (c n a b : Nat) (s : State) : (logEv c n a b s).kiln = s.kiln :=
  (logEv_touch (T := logTouch) (Touches.refl _ s) rfl c n a b).kiln rfl rfl
@[simp] theorem logEv_leaves (c n a b : Nat) (s : State) : (logEv c n a b s).leaves = s.leaves :=
  (logEv_touch (T := logTouch) (Touches.refl _ s) rfl c n a b).leaves rfl
@[simp] theorem logEv_shadows (c n a b : Nat) (s : State) : (logEv c n a b s).shadows = s.shadows :=
  (logEv_touch (T := logTouch) (Touches.refl _ s) rfl c n a b).shadows rfl
@[simp] theorem logEv_links (c n a b : Nat) (s : State) : (logEv c n a b s).links = s.links :=
  (logEv_touch (T := logTouch) (Touches.refl _ s) rfl c n a b).links rfl
@[simp] theorem logEv_fabric (c n a b : Nat) (s : State) : (logEv c n a b s).fabric = s.fabric :=
  (logEv_touch (T := logTouch) (Touches.refl _ s) rfl c n a b).fabric rfl
@[simp] theorem logEv_tables (c n a b : Nat) (s : State) : (logEv c n a b s).tables = s.tables :=
  (logEv_touch (T := logTouch) (Touches.refl _ s) rfl c n a b).tables rfl
@[simp] theorem logEv_ctr (c n a b : Nat) (s : State) : (logEv c n a b s).ctr = s.ctr :=
  (logEv_touch (T := logTouch) (Touches.refl _ s) rfl c n a b).ctr rfl
@[simp] theorem logEv_inbox (c n a b : Nat) (s : State) : (logEv c n a b s).inbox = s.inbox :=
  (logEv_touch (T := logTouch) (Touches.refl _ s) rfl c n a b).inbox rfl
@[simp] theorem logEv_pending (c n a b : Nat) (s : State) : (logEv c n a b s).pending = s.pending :=
  (logEv_touch (T := logTouch) (Touches.refl _ s) rfl c n a b).pending

/-! ### Fields that an update writes -/

@[simp] theorem leafAt_setLeaf (t : Nat) (f : Leaf → Leaf) (s : State) : leafAt (setLeaf t f s) t = f (leafAt s t) := by
  simp [leafAt, setLeaf]

theorem leafAt_setLeaf_ne (t k : Nat) (f : Leaf → Leaf) (s : State) (h : k ≠ t) : leafAt (setLeaf t f s) k = leafAt s k := by
  simp [leafAt, setLeaf, smGet_smMod_ne _ _ _ _ _ _ h]

@[simp] theorem dom_setDom (d : Nat) (f : Dom → Dom) (s : State) : dom (setDom d f s) d = f (dom s d) := by
  simp [dom, setDom]

theorem dom_setDom_ne (d k : Nat) (f : Dom → Dom) (s : State) (h : k ≠ d) : dom (setDom d f s) k = dom s k := by
  simp [dom, setDom, smGet_smMod_ne _ _ _ _ _ _ h]

@[simp] theorem linkAt_setLink (k : Nat) (f : LinkSt → LinkSt) (s : State) : linkAt (setLink k f s) k = f (linkAt s k) := by
  simp [linkAt, setLink]

theorem linkAt_setLink_ne (k j : Nat) (f : LinkSt → LinkSt) (s : State) (h : j ≠ k) : linkAt (setLink k f s) j = linkAt s j := by
  simp [linkAt, setLink, smGet_smMod_ne _ _ _ _ _ _ h]

theorem ctr_ctrAdd (o k : Nat) (s : State) : smGet 0 (ctrAdd o k s).ctr o = min (smGet 0 s.ctr o + k) ctrMax := by
  simp [ctrAdd]

theorem ctr_ctrAdd_ne (o j k : Nat) (s : State) (h : j ≠ o) : smGet 0 (ctrAdd o k s).ctr j = smGet 0 s.ctr j := by
  simp [ctrAdd, smGet_smMod_ne _ _ _ _ _ _ h]

theorem inbox_deliver (a : Arrival) (s : State) : (deliver a s).inbox = s.inbox ++ [a] := rfl

theorem pending_setPend (m : BitVec 8) (s : State) : (setPend m s).faults.pending = s.faults.pending ||| m := rfl

theorem rp_instrumentOnly (s t : State) : (instrumentOnly s t).rp = { t.rp with ack := s.rp.ack } := rfl

theorem parked_park (u i l v : Nat) (b : Body) (g : Bool) (s : State) : (park u i l v b g s).fabric.parked =
    s.fabric.parked ++ [{ unit := u, inst := i, level := l, vc := v, body := b, again := g }] := rfl

theorem progress_noteProgress (k : Nat) (s : State) :
    smGet (0, 0) (noteProgress k s).faults.progress k = (s.time.tick.toNat, pausedTotal s) := by
  simp [noteProgress]

theorem progress_noteProgress_ne (k j : Nat) (s : State) (h : j ≠ k) :
    smGet (0, 0) (noteProgress k s).faults.progress j = smGet (0, 0) s.faults.progress j := by
  simp [noteProgress, smGet_smSet_ne _ _ _ _ _ _ h]

/-! ### Commands -/

/-- A host write while the port serves: it acts on the state with the answer given. -/
theorem hostWrite_answered (s : State) (f : State → State) (h : portLive s = true) : hostWrite s f = f (answered s) :=
  hostWrite_live s f h

end Sys2Proof.Machine
end

