-- ==== Sys2Proof/Machine/Boundary.lean ====
section
/-! DEFINITION. Boundary.lean: what the block drives at its boundary, as functions of the state (Table: Boundary signal groups). An output of
D0 is valid in every power state; every other one is clamped to 0 while its domain is not WARM (R446). Each stands behind the boundary cells of
its wrapper, which drive it outside WS_BYPASS (R457). ATTN stands in Reset.lean, the bits of a lane in Framing.lean. -/

namespace Sys2Proof.Machine

/-- The signals of a read or write request of the leaf interface: request, beat address, and the halves or byte enables with the data. -/
structure LeafReadPins where
  req : Bool
  addr : BitVec 16
  half : BitVec 2
  deriving DecidableEq, Repr

/-- LI_WR_REQ, LI_WR_ADDR, LI_WR_BE and LI_WR_DATA of R125. -/
structure LeafWritePins where
  req : Bool
  addr : BitVec 16
  be : BitVec 64
  data : List Byte
  deriving DecidableEq, Repr

/-- The pins of a lane of the PMA group, R452, R453. -/
structure LanePins where
  txEn : Bool
  rate : BitVec 2
  train : Bool
  retrain : Bool
  deriving DecidableEq, Repr

/-- RP_ACK, RP_RDATA and RP_ERR (R430). -/
structure PortPins where
  ack : Bool
  rdata : Word
  err : Bool
  deriving DecidableEq, Repr

/-- The NVM pins: SPI_SCK runs while SPI_CS_N is 0; the data lines that are driven, and the bytes that have been sent on SPI_IO[0] since the
device was selected (R305 to R307, R446). -/
structure SpiPins where
  csN : Bool
  clocked : Bool
  oe : BitVec 4
  sent : List Byte
  deriving DecidableEq, Repr

/-- The read that the SPI controller has under way: the SFDP read, the image header's, or the whole image's (R305, R306). -/
inductive SpiRead where
  | sfdp
  | header
  | image
  deriving DecidableEq, Repr

/-- The read under way, none outside stages 2 and 3 of kindling. -/
def spiRead (s : State) : Option SpiRead :=
  if s.kindle.state ≠ .kindling then none
  else if s.kindle.stage = 2 then some (if s.kindle.discovered then .header else .sfdp)
  else if s.kindle.stage = 3 then some .image
  else none

/-- The opcode of the mode chosen: 0x0B in 1-1-1 with 3-byte addresses; the other ones the device's tables give (R305), PRESUMED to be those of
JESD216, log 100. -/
def spiOpcode (mode : Nat) (addr4 : Bool) : Byte :=
  if mode = 2 then (if addr4 then 0x6C else 0x6B) else if mode = 1 then (if addr4 then 0x3C else 0x3B) else if addr4 then 0x0C else 0x0B

/-- An address on the SPI bus, its most significant byte first. -/
def spiAddress (addr4 : Bool) (a : Nat) : List Byte := (leBytes (if addr4 then 4 else 3) a).reverse

/-- What has been sent of a read, up to its dummy cycles. -/
def spiSent (s : State) : SpiRead → List Byte
  | .sfdp => 0x5A :: spiAddress false 0
  | _ =>
    let a4 := bitOf s.kindle.nvmInfo 61
    spiOpcode (fieldOf s.kindle.nvmInfo 62 2) a4 :: spiAddress a4 s.kindle.imageBase.toNat

/-- The clock of a read in kHz: 12.5 MHz for the SFDP read, else the one shown in KX_NVM_INFO (R305). -/
def spiKHz (s : State) (r : SpiRead) : Nat :=
  if r = .sfdp then 12500 else if fieldOf s.kindle.nvmInfo 59 2 = 0 then 50000 else if fieldOf s.kindle.nvmInfo 59 2 = 1 then 25000 else 12500

/-- The NVM pins of D0. Between commands a read waits for the device's data: KX4 drives no data line then, and at no time more than SPI_IO[0],
as it writes nothing to the NVM (R307). -/
def spiPins (s : State) : SpiPins :=
  match spiRead s with
  | none => { csN := drivenBit s .ember 20 true, clocked := drivenBit s .ember 21 false, oe := (driven s .ember 22 0).setWidth 4, sent := [] }
  | some r => { csN := drivenBit s .ember 20 false, clocked := drivenBit s .ember 21 true, oe := (driven s .ember 22 0).setWidth 4,
                sent := if cellsDrive s .ember then [] else spiSent s r }

/-- The register port's outputs (R430). -/
def portPins (s : State) : PortPins :=
  { ack := drivenBit s .ember 10 s.rp.ack, rdata := driven s .ember 11 s.rp.rdata, err := drivenBit s .ember 12 s.rp.err }

/-- KX_PD_REQ of a domain; D0, D62 and D63 are always requested (R341, R449). -/
def pdReq (s : State) (d : Nat) : Bool :=
  drivenBit s .ember (100 + d) (decide (d = 0 ∨ d = 62 ∨ d = 63) || (implemented s d && (dom s d).req))

/-- KX_PD_RET of a domain (R341). -/
def pdRet (s : State) (d : Nat) : Bool := drivenBit s .ember (200 + d) (implemented s d && (dom s d).ret)

/-- KX_PLL_W_EN or KX_PLL_E_EN: raised when the clocking domain is granted (R448). -/
def pllEn (s : State) (east : Bool) : Bool :=
  let d := dom s (if east then 61 else 60)
  drivenBit s .ember (if east then 31 else 30) (d.req && d.gnt)

/-- The segment domain of a tile is WARM: the leaf interface of the tile is driven, and its inputs are listened to (R449). -/
def leafDriven (s : State) (t : Nat) : Bool := warm s (segOf t + 1)

/-- LI_RD_REQ, LI_RD_ADDR and LI_RD_HALF: the first beat not yet granted, held until it is (R125, R126, R449). -/
def leafReadPins (s : State) (t : Nat) : LeafReadPins :=
  if cellsDrive s (tileWrapper t) then
    let x := Config.freeCell s.free (8 * t)
    { req := x.getLsbD 0, addr := x.extractLsb' 1 16, half := x.extractLsb' 17 2 }
  else match (leafAt s t).reading with
  | some r =>
    match r.want with
    | b :: _ => if leafDriven s t then { req := true, addr := BitVec.ofNat 16 b.addr, half := b.half } else { req := false, addr := 0, half := 0 }
    | [] => { req := false, addr := 0, half := 0 }
  | none => { req := false, addr := 0, half := 0 }

/-- LI_WR_REQ, LI_WR_ADDR, LI_WR_BE and LI_WR_DATA, in the same way. -/
def leafWritePins (s : State) (t : Nat) : LeafWritePins :=
  if cellsDrive s (tileWrapper t) then
    let x := Config.freeCell s.free (8 * t + 1)
    { req := x.getLsbD 0, addr := x.extractLsb' 1 16, be := Config.freeCell s.free (8 * t + 2),
      data := (List.range 8).flatMap (fun k => wordBytes (Config.freeCell s.free (10000 + 8 * t + k))) }
  else match (leafAt s t).writing with
  | some w =>
    match w.beats with
    | b :: _ =>
      if leafDriven s t then { req := true, addr := BitVec.ofNat 16 b.addr, be := b.be, data := b.data }
      else { req := false, addr := 0, be := 0, data := [] }
    | [] => { req := false, addr := 0, be := 0, data := [] }
  | none => { req := false, addr := 0, be := 0, data := [] }

/-- LI_STEP_OPEN (R125, R369, R449). -/
def stepOpenPin (s : State) (t : Nat) : Bool := drivenBit s (tileWrapper t) (8 * t + 3) (leafDriven s t && (leafAt s t).stepOpen)

/-- LI_CNT_RVALID with LI_CNT_RDATA (R127, R449). -/
def countPins (s : State) (t : Nat) : Option (BitVec 32) :=
  if cellsDrive s (tileWrapper t) then
    let x := Config.freeCell s.free (8 * t + 4)
    if x.getLsbD 32 then some (x.setWidth 32) else none
  else if leafDriven s t && (leafAt s t).cntRvalid then some (leafAt s t).cntRdata else none

/-- The lanes of the width that a port trains at: the trained one, and the configured one while no width has been trained (R213, R231, R453). -/
def laneMask (s : State) (p : Nat) : BitVec 8 :=
  let l := linkAt s p
  match l.state with
  | .training => if trained s p then l.lanesGood else widthMask (((effPort s p).map (·.width)).getD 0)
  | .retraining => if l.lanesGood = 0 then widthMask (((effPort s p).map (·.width)).getD 0) else l.lanesGood
  | .up => l.lanesGood
  | .degrading => ((l.degrade.map Prod.snd).getD l.lanesGood)
  | _ => 0

/-- Lane i of port p drives: the domain of the port is WARM, and the lane is in the width in use (R453). -/
def laneOn (s : State) (p i : Nat) : Bool := warm s (domLink p) && (laneMask s p).getLsbD i

/-- PMA_TX_EN, PMA_RATE, PMA_TRAIN and PMA_RETRAIN of lane n = 8p + i (R452, R453): a full training raises PMA_TRAIN until PMA_TRAIN_DONE ends it,
a fast retrain or a change of width, which keep the coefficients, PMA_RETRAIN (R215, R229, R230). -/
def lanePins (s : State) (n : Nat) : LanePins :=
  let p := n / 8
  let l := linkAt s p
  let on := laneOn s p (n % 8)
  let full := (decide (l.state = .training) && !trained s p) || (decide (l.state = .retraining) && decide (l.lanesGood = 0))
  let w := linkWrapper p
  { txEn := drivenBit s w (4 * n) on,
    rate := (driven s w (4 * n + 1) ((if !on then 0 else if l.state = .training then
      l.tryRate.getD (BitVec.ofNat 2 (((effPort s p).map (·.rate)).getD 0)) else l.rate).setWidth 64)).setWidth 2,
    train := drivenBit s w (4 * n + 2) (on && full),
    retrain := drivenBit s w (4 * n + 3) (on && !full && (decide (l.state = .retraining) || decide (l.state = .degrading))) }

/-- PMA_TXD of lane n since the last ember edge, given what the lane receives: the words of its port's codewords, or in Ethernet mode those of
its PCS; far-end loopback sends back what comes in, and the cells of the half's wrapper drive what they hold (R452, R453, R457, R458). -/
def pmaTxd (s : State) (n : Nat) (rxd : List (BitVec 256)) : List (BitVec 256) :=
  let p := n / 8
  let l := linkAt s p
  if cellsDrive s (linkWrapper p) then rxd.mapIdx (fun i _ => wordOfBits ((List.range 4).flatMap (fun k =>
      (List.range 64).map (fun j => (Config.freeCell s.free (20000 + 4 * (1000 * n + i) + k)).getLsbD j))))
  else if farLoop s n then rxd
  else if !laneOn s p (n % 8) then []
  else if isEth s p then Config.pcsWords l.rate.toNat l.width.toNat l.wire (n % 8)
  else laneWords l (n % 8)

/-- What the receiver of lane n takes: PMA_RXD, or in near-end loopback its own words (R458). -/
def pmaRx (s : State) (n : Nat) (rxd : List (BitVec 256)) : List (BitVec 256) := if nearLoop s n then pmaTxd s n rxd else rxd

/-- The frames that an Ethernet-mode port takes from its lanes: the operands of its frame commands (R234). -/
def pcsTakes (s : State) (p : Nat) (lanes : List (List (BitVec 256))) : List (List Byte) :=
  Config.pcsFrames (linkAt s p).rate.toNat (linkAt s p).width.toNat lanes

/-- The pair of codewords that a KX4-mode port takes from the words of its active lanes, deskewed, and the flits in it: the operands of
FLIT_RECEIVE (R226, R453). -/
def portTakes (lanes : List (List (BitVec 256))) : Option (List (RxCheck × List Byte)) :=
  receiveGroup (gather (lanes.map (fun ws =>
    let bs := ws.flatMap bitsOfWord
    (List.range (bs.length / 10)).map (fun i => ((wordOfBits ((bs.drop (10 * i)).take 10)).setWidth 10)))))

/-- The flits that a module gives to its adapter's FDI since the last ember edge, one in each lclk cycle (R455). -/
def fdiFlits (s : State) (u : Nat) : List (List Byte) :=
  let k := 18 + u
  if cellsDrive s (linkWrapper k) then (linkAt s k).wire.mapIdx (fun i _ => (List.range 32).flatMap (fun j =>
    wordBytes (Config.freeCell s.free (1000000 + 32 * (100 * u + i) + j))))
  else if warm s (domLink k) then (linkAt s k).wire else []

/-- The serial output of a wrapper's test port, and of the IEEE 1687 segment (no wrapper): what the chain that the TAP has chosen shifts out, which
no rule gives (R457, R458). -/
def testSerialOut (s : State) (chain : Nat) : Bool := s.pins.testMode && (Config.freeCell s.free (40 + chain)).getLsbD 0

/-- KX_THR_ACK_W, KX_THR_ACK_E and KX_EAST_WANTED, outputs of D0 (R355, R356). -/
def throttlePins (s : State) : Bool × Bool × Bool :=
  (drivenBit s .ember 35 s.pins.thrAckW, drivenBit s .ember 36 s.pins.thrAckE, drivenBit s .ember 37 s.power.eastWanted)

end Sys2Proof.Machine
end

