-- ==== Sys2Proof/Tests/Slice0.lean ====
section
/-! SUPPORT. Slice0.lean: for every statement with hypotheses a state that meets them (wit_…), the checks of WellFormed, the spec's
worked examples and a few single commands (test_…). Expected values come from the spec. -/

open Sys2Proof Sys2Proof.Machine

namespace Sys2Proof.Tests

set_option Elab.async false

/-! ### A small world: one die of a package of two -/

/-- What a step leaves, where it goes on. -/
def after (o : Host.Outcome State Fault Refusal) : State :=
  match o with
  | .next t => t
  | _ => State.reset

/-- Group 0: dies 0 and 1 of a package, tile 0 of each. -/
def g0 : GroupDef :=
  { num := 0, topLevel := 1, members := [(0, 1), (1, 1)], nonfiniteHalt := false, exhaustHalt := true, skewFactor := 1, boundMs := 1000,
    tileSelect := 1, standby := [] }

/-- An operation entry of kind `k`: INT32 SUM of one row in group 0, plan index 0. -/
def entryOf (k : Nat) : PlanEntry :=
  { w0 := putField 44 4 k ||| putField 40 4 5, w1 := putField 32 32 32, w2 := 0, w3 := 0, w4 := putField 48 16 4, w5 := 0, w6 := 0, w7 := 0 }

/-- Settings of a KX4-mode port of level 2 and of a module that faces die 1's instance. -/
def port0 : PortCfg :=
  { mode := 1, level := 2, rate := 1, width := 2, fallback := false, spare := false, timeEn := true, tagEn := false, spareFor := 0xFFFF,
    peerInst := 9, peerPort := 0, asymPs := 0, etherType := 0, vlan := 0, srcMac := 0, pcp := 0, peers := [] }

def portEth : PortCfg :=
  { port0 with mode := 3, level := 4, etherType := 0x88B5, srcMac := 7, peers := [{ inst := 9, port := 0, mac := 8 }] }

def mod0 : ModCfg :=
  { enabled := true, ucie2 := true, timeEn := true, minRate := 4, peerInst := 6, peerMod := 0, asymPs := 0, relays := [] }

def pol0 : Policies :=
  { spareCounts := [], arrivalReserve := 64, recoveryReserve := 64, ceWarn := 100, ceRetire := 1000, exchLockedUs := 100, exchAcqUs := 10,
    delayWinL13Ps := 1000, delayWinL4Ps := 1000, timeLossLimit := 8, holdoverUs := 1000, launchLeadMin := 100, laneSerLimit := 100,
    hallDeadUs := 1000, moduleTrainUs := 1000, peerWaitMs := 1000 }

def im0 (k : Nat) : Image :=
  { formatVersion := 3, microcode := 0, store := [], imageBytes := 0, sharedCrc := 0, buildTag := 0, hearthOnly := false, pool := false, groups := [g0],
    places := [{ group := 0, level := 1, coord := 0, entries := [5] }], sysMap := [(0, 5), (1, 6)], ports := [port0, port0, portEth],
    modules := [mod0], weights := [8, 8, 8, 8, 4], portDepths := [], moduleDepths := [], policies := pol0, cold := [], planHdr := [],
    planW := [0, 0, 0, 0], entries := [entryOf k], tileMap := [], leafSets := [], descriptors := [(0, 0)], tables := [] }

/-- Instance 5 holds die 0, is the root of group 0 and runs its first step, with everything WARM. -/
def w0 (k : Nat) : State :=
  { State.reset with
    kindle := { State.reset.kindle with state := .ready, instanceId := 5, anchorLocked := true, requested := true, logical := [0], spares := 2 },
    image := some (im0 k),
    power := { State.reset.power with doms := (List.range 64).map (fun d => (d, Dom.always)), pllW := true, pllE := true },
    step := { State.reset.step with state := .opened, openW := true, openE := true },
    faults := { State.reset.faults with myDie := some 0 },
    kiln := { State.reset.kiln with groups := [g0], places := [{ group := 0, level := 1, coord := 0, entries := [5] }], roots := [(0, 5)] },
    tables := { State.reset.tables with members := [(0, 0x4000014000000000), (1, 0x4000018000000000)] },
    log := { State.reset.log with filling := false, queue := [] } }
/-! ### Witnesses: states that meet the hypotheses of the statements, clause by clause -/

/-- Reset with the port's inputs, and a command waiting. -/
def rst0 : State := State.reset

def idle0 : State := { w0 0 with step := { (w0 0).step with state := .idle, openW := false, openE := false } }

def armed0 : State := { w0 0 with step := { (w0 0).step with state := .armed, openW := false, openE := false, launch := 1000 } }

/-- Kindling in a stage. -/
def stage (n : Nat) : State := { rst0 with kindle := { rst0.kindle with state := .kindling, stage := n, instanceId := 5, anchorLocked := true } }

/-- One domain in a given state of its hand-off. -/
def domIn (d : Nat) (x : Dom) : State := { w0 0 with power := { (w0 0).power with doms := smSet Dom.init (w0 0).power.doms d x } }

def lockedAnchor : State := { rst0 with kindle := { rst0.kindle with anchorLocked := true, instanceId := 5 } }

def stage7 : State := { stage 7 with image := some { im0 0 with ports := [], modules := [] } }

def asking : Dom := { st := .waking, req := true, ret := false, gnt := false, wanted := false, lateCounted := false, leave := none }
def leaving : Dom := { st := .off, req := false, ret := false, gnt := true, wanted := false, lateCounted := false, leave := none }

def unlocked60 : State := domIn 60 { Dom.always with st := .waking }
def unlocked61 : State := domIn 61 { Dom.always with st := .waking }
def eastAjar : State := { w0 0 with power := { (w0 0).power with eastClosed := true } }

def banked0 : State := { idle0 with power := { idle0.power with banked := true } }

/-- A PREHEAT entry with a hold on D17. -/
def preheatEntry : PlanEntry :=
  { w0 := putField 62 2 1, w1 := 0x20000, w2 := putField 16 16 5, w3 := 0, w4 := 0, w5 := 0, w6 := 0, w7 := 0 }

def preheating : State :=
  { w0 0 with image := some { im0 0 with entries := [preheatEntry] }, power := { (w0 0).power with preheatDue := [(0, -5)], coolIdle := 10 } }

def cool17 : State := { idle0 with power := { idle0.power with coolIdle := 10 } }

def hearth0 : State := { w0 0 with params := { (w0 0).params with hearthOnly := true } }

/-- The state with one link unit set. -/
def linkIn (k : Nat) (x : LinkSt) (s : State) : State := { s with links := smSet (LinkSt.init k) s.links k x }

def up0 (k : Nat) : LinkSt :=
  { LinkSt.init k with state := .up, lanesGood := 0xFF, width := 2, peerInst := 9, chans := List.replicate 5 { Chan.init with credits := 100 } }

def link0 : State := linkIn 0 (up0 0) (w0 0)

def inboxOf (a : Arrival) (s : State) : State := { s with inbox := [a] }

def master0 : State := { idle0 with time := { idle0.time with state := .master, sysConfirm := true } }

def mgmtOf (m : Msg) : Arrival := { src := .link (.port 0) 0, vc := 4, body := .mgmt m }
def timeMsg : Msg := { msgZero with m0 := putField 56 8 1, m1 := putField 32 32 7 }

def ev0 : LogEvent := LogEvent.reset 0 5
def logging (q : List LogEvent) : State := { w0 0 with log := { (w0 0).log with queue := q } }
def logged : State := after (exec .logWrite (logging [ev0, ev0]))

def fwdMsg : Msg := { msgZero with m0 := putField 56 8 7 ||| putField 8 24 5, m2 := putField 48 16 0x0201 ||| putField 8 24 9 }

def frz (m : State) : State := { m with freeze := { m.freeze with tickReg := 20000 } }
def freezeMsg : Msg := { msgZero with m0 := putField 56 8 6 ||| putField 8 24 0xFFFFFF, m1 := 50000, m2 := putField 48 16 1 }
def af0 : ArmedFreeze := { tick := 0, id := 1, source := 0 }
def due0 : State := { w0 0 with freeze := { (w0 0).freeze with pendingSys := some af0 } }

def waiting0 : Wait := { vc := 0, flow := 0, left := 1, seq := 0, cord := { w0 := 0, w1 := 0, w2 := 0, w3 := 0, w4 := 0, w5 := 0, w6 := 0, w7 := 0, payload := [] } }
def injIn (j : Nat) (x : Injector) (s : State) : State := { s with inject := { s.inject with units := smSet Injector.init s.inject.units j x } }

def flit0 : Flit := nopFlit

def cord0 : Cord := waiting0.cord
def queued0 : State := linkIn 0 { up0 0 with chans := [{ Chan.init with credits := 1, queue := [{ cord := cord0, sent := 0, flow := 0, again := false, void := false, mark := none }] }] } (w0 0)

def okFlit : List Byte := flitBytes false { nopFlit with seqd := true, seq := 0 } 4095 false

def training0 (k : Nat) (x : LinkSt) : State := linkIn k { x with state := .training } (w0 0)
def linkIdMsg : Msg := { msgZero with m0 := putField 56 8 1 ||| putField 32 24 9 ||| putField 24 8 0 ||| putField 16 8 3, m1 := 0 }
def ctrlFrom (m : Msg) : Arrival := { src := .link (.port 0) 0, vc := 4, body := .ctrl m }

def degradeMsg (t : Nat) : Msg := mkDegrade t 1 0x0F

def spare0 : State :=
  let s := w0 0
  let im := im0 0
  linkIn 1 { up0 1 with role := 1 } (linkIn 0 (up0 0) { s with image := some { im with ports := [port0, { port0 with spare := true, spareFor := 1, peerPort := 1 }, portEth] } })
def takeMsg (t : Nat) : Msg := { msgZero with m0 := putField 56 8 t ||| putField 48 8 0 }

def item0 : RingItem := { id := 1, src := 1, dests := [3], vc := 0, flits := 1, sent := [], arrived := 0, void := false, again := false, waited := false, item := mgmtOf timeMsg, leaves := [] }
def ring0 : State := { w0 0 with fabric := { (w0 0).fabric with items := [item0] } }

def hallFrame (type frag : Nat) (fcs : Bool) : HallFrame :=
  { dstMac := 7, etherType := 0x88B5, tagged := false, pause := false, fcsOk := fcs,
    h0 := putField 56 8 1 ||| putField 52 4 type ||| putField 48 1 frag ||| putField 0 32 1, h1 := 0, h2 := 0, h3 := 0,
    h4 := putField 40 24 9 ||| putField 8 24 5 ||| putField 0 8 2, body := List.replicate (minBody false) 0 }

def eth0 : State := linkIn 2 { up0 2 with flows := [(0, { Flow.init with state := 2 })] } (w0 0)

def unit0 : HallUnit :=
  { seq := 1, vc := 4, type := 3, bodies := [[0]], cord := none, again := false, buf := noBuf, resend := [], sends := 1, firstTx := 1, lastTx := 1 }

def leafIn (x : Leaf) (s : State) : State := { s with leaves := smSet Leaf.init s.leaves 0 x }
def open0 : Leaf := { Leaf.init with stepOpen := true }

/-- A trigger on plan entry 0: counter 0, threshold 1, stride 1, two cords, one per firing. -/
def tr0 : Trig :=
  { slot := 0, w0 := putField 32 32 1 ||| putField 16 16 1, w1 := putField 32 16 1 ||| putField 24 8 1 ||| bitAt 10 true, threshold := 1,
    issued := 0, armed := true, fired := false, preheated := false }

def fire0 : Firing := { slot := 0, plan := 0, cord := 0, kind := .data }

/-- A node instance of plan entry 0. -/
def nodeOf (n : NodeId) : NodeInst :=
  { plan := 0, node := n, n := 2, win := 1, claim := 2, cords := 1, admitted := true, lowest := 0, opens := [], closed := [], copied := [],
    copyWait := [], results := [], fromRecovery := 0, notices := [], noticeSent := false, armSent := false, skewWarned := false, maxSkew := 0, partials := [],
    parentLowest := [], leadLogged := false }

def nodesIn (l : List NodeInst) (s : State) : State := { s with kiln := { s.kiln with nodes := l } }

def feeding (n : List NodeInst) : State :=
  nodesIn n (leafIn { open0 with fireQ := [fire0], trigs := [tr0], rings := [(0, bitAt 45 true)] } (w0 0))

def read0 : ReadCtx :=
  { firing := fire0, want := [{ addr := 0, half := 3, isMask := true }], wait := [], got := [], mask := 0, maskKnown := false, rows := 1, base := 64,
    restore := none, stalled := false, void := false }
def readingIn (r : ReadCtx) : State := leafIn { open0 with reading := some r, rings := [(0, bitAt 45 true)] } (w0 0)
def granted0 : ReadCtx := { read0 with want := [], wait := [{ addr := 0, half := 3, isMask := true }] }
def lastBeat0 : ReadCtx := { granted0 with wait := [{ addr := 64, half := 3, isMask := false }] }

/-- A cord of plan entry 0 from die 1: one absent row. -/
def cordOf (k : Nat) (src tgt : Nat) : Cord :=
  { w0 := mkW0 5 k 0 0 0 src, w1 := mkW1 0 0, w2 := mkW2 tgt 0 1 0, w3 := 0, w4 := 0, w5 := 0, w6 := 0, w7 := 0, payload := [] }

def land0 : Land := { slot := 0, w0 := bitAt 51 true, w1 := 0, met := true, visible := true }
def landing0 : State := leafIn { open0 with landQ := [{ slot := 0, buf := none, seq := 0, cord := cordOf 0 1 0 }], lands := [land0] } (w0 0)
def beat0 (k : WrKind) : WrBeat := { addr := 0, be := 0, data := [], kind := k }
def write0 (b : List WrBeat) : WriteCtx := { slot := 0, cord := some (cordOf 0 1 0), beats := b, stalled := false, void := false }
def writingIn (b : List WrBeat) : State := leafIn { open0 with writing := some (write0 b), lands := [land0] } (w0 0)

def noSpares : State := { w0 0 with kindle := { (w0 0).kindle with spares := 0 } }

def toOpen : State := { armed0 with step := { armed0.step with launch := 0 } }
def halfOpened : State := { toOpen with step := { toOpen.step with state := .opened, openW := true } }

def up18 (s : State) : State := linkIn 18 { up0 18 with peerInst := 6 } s
def upArr : Arrival := { src := .link (.module 0) 0, vc := 0, body := .cord (cordOf 0 1 0) }
def at1 : State := inboxOf upArr (up18 (nodesIn [nodeOf (nodeId 1 0)] (w0 0)))

def openOf (n : Nat) : OpenCord :=
  { idx := 0, ops := [{ child := 0, buf := 0, cord := cordOf 0 0 0 }, { child := 1, buf := 1, cord := cordOf 0 1 0 }], attempts := n, residue := false,
    late := false, firstTick := 0, lastTick := 0, pausedBase := 0, forwarded := false, sent := false, partialOut := none }
def combining0 (n : Nat) : State := nodesIn [{ nodeOf (nodeId 1 0) with opens := [openOf n] }] (w0 0)
def segPair : State :=
  let s := w0 0
  let g : GroupDef := { g0 with topLevel := 0, members := [(0, 2)], tileSelect := 3 }
  nodesIn [{ nodeOf (segNode 0 0) with opens := [openOf 2] }] { s with kiln := { s.kiln with groups := [g] }, kindle := { s.kindle with logical := [0, 1], spares := 0 } }

def rootArr : Arrival := { src := .self 0, vc := 0, body := .root (cordOf 0 0 0) }
def finish0 : State := inboxOf rootArr (w0 0)
def goodCord : Cord := sealCrc (cordOf 0 0 0) 0
def downArr (c : Cord) : Arrival := { src := .self 1, vc := 1, body := .cord c }
def desc0 (c : Cord) : State := inboxOf (downArr c) (nodesIn [nodeOf (nodeId 0 0)] (w0 0))
def ackCord0 : Cord := { cordOf 8 1 0 with w2 := 0 }
def ackArr : Arrival := { src := .link (.module 0) 0, vc := 3, body := .cord ackCord0 }
def restArr : Arrival := { ackArr with body := .cord (cordOf 10 1 0) }
def mirror0 : State :=
  let s := w0 8
  inboxOf ackArr { s with step := { s.step with mirrorOut := [(0, 0, 0)] } }
def restore0 : State :=
  let s := w0 0
  let im : Image := { im0 0 with tileMap := [0], leafSets := [{ triggers := [(0, 1)], rings := [0], landings := [] }] }
  inboxOf restArr { s with image := some im, faults := { s.faults with restoreDue := [(0, 0, 0)] } }

def toMe (type dest : Nat) : Word := putField 56 8 type ||| putField 8 24 dest
def waiting1 : State := nodesIn [{ nodeOf (nodeId 1 0) with admitted := false }] { w0 0 with kiln := { (w0 0).kiln with waiting := [(0, 0)] } }
def noticeMsg (type step : Nat) : Msg :=
  { msgZero with m0 := toMe type 5, m1 := putField 48 4 1 ||| putField 16 16 1, m2 := putField 16 48 step }
def drainMsg (step att : Nat) : Msg := { msgZero with m0 := putField 56 8 2 ||| putField 0 48 step, m1 := putField 0 16 att }
def windowMsg (step : Nat) : Msg := { msgZero with m0 := putField 56 8 3 ||| putField 48 4 1, m1 := putField 16 48 step }

/-- A SEAL cord with CORD_INDEX `idx`. -/
def sealOf (idx src : Nat) (payload : List Byte) : Cord :=
  { w0 := mkW0 5 9 0 0 0 src, w1 := mkW1 0 idx, w2 := mkW2 0 0 1 0, w3 := 1, w4 := 0, w5 := 0, w6 := 0, w7 := 0, payload := payload }
def sealArr (idx src vc : Nat) (payload : List Byte) : Arrival :=
  { src := if vc = 0 then .link (.module 0) 0 else .self 1, vc := vc, body := .cord (sealOf idx src payload) }
def sealIn (idx src vc : Nat) (payload : List Byte) (s : State) : State := inboxOf (sealArr idx src vc payload) (up18 s)
def colIn (idx : Nat) (s : State) : State :=
  { s with step := { s.step with cols := [{ node := nodeId 1 0, idx := idx, rows := [(0, sealIdentity)], bufs := [], sent := false }] } }
def launching : State :=
  { idle0 with time := { idle0.time with launchPending := true }, step := { idle0.step with checkFed := true } }
def badRow : List Byte := zeros 64 ++ [1] ++ zeros 63

/-- The broadcast row with outcome `o`. -/
def outcomeBytes (o : Nat) : List Byte := leBytes 128 (o * 2 ^ 28)

/-- A PLACEMENT_CHANGE (type 2) or FIREBREAK (type 5) message to destination `dest`. -/
def chg (type dest kind seq die old new : Nat) : Msg :=
  { msgZero with m0 := toMe type dest, m1 := putField 56 8 kind ||| putField 0 32 seq, m3 := putField 48 16 die ||| putField 28 4 1,
                 m4 := putField 40 24 old ||| putField 16 24 new }
def chgIn (m : Msg) (s : State) : State := inboxOf (mgmtOf m) s

def pooled : State :=
  { w0 0 with faults := { (w0 0).faults with pool := [(0, bitAt 63 true ||| bitAt 62 true ||| putField 25 24 8), (1, bitAt 63 true ||| bitAt 62 true ||| putField 25 24 9)] } }
def offer0 : Offer := { die := 1, old := 6, next := 1, cand := some 8, mapCrc := 0, since := 0 }
def offering : State := { pooled with faults := { pooled.faults with offers := [offer0] } }

def waitingCord0 : OpenCord := { openOf 0 with ops := [{ child := 0, buf := 0, cord := cordOf 0 0 0 }] }
def skewed (w : Bool) : State :=
  let s := nodesIn [{ nodeOf (nodeId 1 0) with opens := [waitingCord0], skewWarned := w }] (w0 0)
  { s with time := { s.time with tick := 10000000000 } }
def reportMsg : Msg := { chg 5 5 1 0 1 6 0 with m2 := stepContext (w0 0) }
def collecting0 (t : Word) : State := { w0 0 with faults := { (w0 0).faults with collecting := some 0, reports := [reportMsg] }, time := { (w0 0).time with tick := t } }

def opSum : OpSpec := opSpecOf (entryOf 0) 2 0

theorem wit_StepRunsTheFrontCommand : ({ rst0 with pending := [.tickRead, .logWrite] } : State).pending = .tickRead :: [.logWrite] := by decide

theorem wit_IdleStepIsOneEmberEdge : rst0.pending = [] ∧
    ({ rst0 with pins := { rst0.pins with rstN := false } } : State).pending = [] ∧
    portLive { rst0 with pins := { rst0.pins with rstN := false } } = false := by decide

theorem wit_SafeStatesNeverStop : State.Safe { rst0 with pending := [.tickRead] } := by
  refine ⟨by decide, ?_⟩
  simp [wellFormed]

theorem wit_OnlyMalformedOperandsStop :
    (∃ l chk flit rest, ({ rst0 with pending := [.flitReceive (.port 0) ⟨0, false, false, 0⟩ []] } : State).pending =
      .flitReceive l chk flit :: rest ∧ flit.length ≠ 256) ∧
    (∃ b rest, ({ rst0 with pending := [.imageHeaderRead []] } : State).pending = .imageHeaderRead b :: rest ∧ b.length ≠ 256) :=
  ⟨⟨_, _, _, _, rfl, by decide⟩, ⟨_, _, rfl, by decide⟩⟩

theorem wit_HostSetsTheStepAndItsGroupsInIdle : portLive idle0 = true ∧ idle0.step.state = .idle ∧ idle0.faults.hold = none ∧
    (0x4000014000000000 : Word).extractLsb' 62 2 ≠ 3 ∧ portLive (w0 0) = true ∧ (w0 0).step.state ≠ .idle ∧
    (0xC000000000000000 : Word).extractLsb' 62 2 = 3 := by decide +kernel

theorem wit_StopIsRememberedAndOnesClear : portLive (w0 0) = true := by decide

theorem wit_TrustAndIdentityBeforeKindling : portLive rst0 = true ∧ rst0.kindle.anchorLocked = false ∧ rst0.kindle.state = .cold ∧
    rst0.kindle.requested = false ∧ portLive (w0 0) = true ∧ (w0 0).kindle.anchorLocked = true ∧ (w0 0).kindle.state ≠ .cold := by decide

theorem wit_DisabledTilesAreTakenAtTheNextKindling : portLive rst0 = true ∧ rst0.params.hearthOnly = false ∧ rst0.kindle.state = .cold ∧
    portLive (w0 0) = true ∧ (w0 0).kindle.state ≠ .cold ∧ (w0 0).power.banked = false ∧
    ¬((w0 0).kindle.state = .ready ∧ ((w0 0).step.state = .idle ∨ (w0 0).step.state = .halted)) ∧
    portLive idle0 = true ∧ (1 : Word).getLsbD 0 = true ∧ idle0.kindle.state = .ready ∧ idle0.step.state = .idle := by decide +kernel

theorem wit_KindleRequestStartsKindling : portLive lockedAnchor = true ∧ (1 : Word).getLsbD 0 = true ∧ lockedAnchor.kindle.state = .cold ∧
    lockedAnchor.kindle.anchorLocked = true ∧ lockedAnchor.kindle.instanceId ≠ 0xFFFFFF ∧ lockedAnchor.pins.needRstPulse = false ∧
    portLive (stage 3) = true ∧ (stage 3).kindle.state = .kindling := by decide

theorem wit_ImageIsReadAndAuthenticated :
    ((stage 2).kindle.state = .kindling ∧ (stage 2).kindle.stage = 2 ∧ (stage 2).kindle.discovered = false ∧
      (stage 2).kindle.imageBase.toNat + 256 ≤ 16777216) ∧
    (({ stage 2 with kindle := { (stage 2).kindle with discovered := true } } : State).kindle.discovered = true ∧
      (List.replicate 256 (0 : Byte)).length = 256) ∧
    (([] : List Byte).length ≠ 256) ∧
    ((stage 3).kindle.state = .kindling ∧ (stage 3).kindle.stage = 3 ∧ ([] : List Byte).length = imgBytes (stage 3).kindle.header) ∧
    ((stage 4).kindle.state = .kindling ∧ (stage 4).kindle.stage = 4) := by decide +kernel

theorem wit_ImageIsLoadedAndTheInstanceReady : ((stage 5).kindle.state = .kindling ∧ (stage 5).kindle.stage = 5) ∧
    (stage7.image = some { im0 0 with ports := [], modules := [] } ∧ stage7.kindle.state = .kindling ∧ stage7.kindle.stage = 7 ∧
      (List.range 24).all (settled stage7) = true) ∧
    ({ rst0 with kindle := { rst0.kindle with state := .locked } } : State).kindle.state = .locked := by decide +kernel

theorem wit_StageTimeoutFailsKindling : (stage 1).kindle.state = .kindling ∧ 1 ≤ (stage 1).kindle.stage ∧ (stage 5).kindle.stage ≤ 5 ∧
    ({ rst0 with kindle := { rst0.kindle with state := .locked } } : State).kindle.state = .locked := by decide

theorem wit_GrantsMoveADomain :
    (implemented (domIn 17 asking) 17 = true ∧ (dom (domIn 17 asking) 17).gnt = false ∧ (dom (domIn 17 asking) 17).req = true) ∧
    (implemented (domIn 62 Dom.init) 62 = true ∧ (dom (domIn 62 Dom.init) 62).gnt = false ∧ (dom (domIn 62 Dom.init) 62).req = false) ∧
    ((dom (domIn 17 leaving) 17).gnt = true ∧ (dom (domIn 17 leaving) 17).req = false ∧ (dom (domIn 17 leaving) 17).wanted = false) ∧
    (dom (domIn 17 { leaving with wanted := true }) 17).wanted = true := by decide +kernel

theorem wit_PowerFaultCostsTheUnits : ∀ d : Fin 4, let k := [1, 17, 25, 62].getD d.val 0
    implemented (w0 0) k = true ∧ (dom (w0 0) k).gnt = true ∧ (dom (w0 0) k).req = true := by decide +kernel

theorem wit_LateGrantsAreCountedAndLogged : (dom (domIn 17 asking) 17).req = true ∧ (dom (domIn 17 asking) 17).gnt = false ∧ 200 < 201 ∧
    (dom (domIn 17 asking) 17).lateCounted = false ∧ (domIn 17 asking).kindle.state ≠ .kindling ∧
    (dom ({ stage 1 with power := { (stage 1).power with doms := [(0, Dom.always), (57, asking), (62, Dom.always), (63, Dom.always)] } }) 57).req = true := by
  decide +kernel

theorem wit_ClocksLockAndThrottle : ((dom unlocked60 60).gnt = true ∧ warm unlocked60 60 = false) ∧
    ((dom unlocked61 61).gnt = true ∧ warm unlocked61 61 = false) ∧ (warm (w0 0) 60 = true ∧ warm (w0 0) 61 = true) ∧
    ((3 : BitVec 3).toNat ≤ 3 ∧ (w0 0).power.pllW = true ∧ (w0 0).power.pllE = true ∧ rst0.power.pllW = false ∧ 4 ≤ (4 : BitVec 3).toNat) ∧
    (eastLinkUp (w0 0) = false ∧ eastBound (w0 0) = false) ∧ (eastAjar.power.eastClosed = true ∧ clockRuns eastAjar true = true) := by
  decide +kernel

theorem wit_HostMovesTheBlockBetweenPowerStates : (portLive idle0 = true ∧ (0x8000000000000000 : Word).extractLsb' 61 3 = 4 ∧
      idle0.power.banked = false ∧ idle0.kindle.state = .ready ∧ idle0.step.state = .idle) ∧
    ((w0 0).kindle.state = .ready ∧ (w0 0).step.state = .opened ∧ armed0.step.state = .armed) ∧
    ((0x4000000000000000 : Word).extractLsb' 61 3 = 2 ∧ banked0.power.banked = true ∧ banked0.power.waking = false) ∧
    ((0x2000000000000000 : Word).extractLsb' 61 3 = 1 ∧ rst0.power.banked = false ∧ rst0.kindle.state ≠ .ready) := by decide +kernel

theorem wit_DomainsAreAskedForAndCooled :
    (armed0.step.state = .armed ∧ armed0.power.leadRaised = false ∧ armed0.step.launch.toNat ≤ armed0.time.tick.toNat + armed0.power.openLead.toNat) ∧
    (preheating.power.preheatDue.find? (fun p => p.1 == 0) = some (0, -5) ∧ entryAt preheating 0 = some preheatEntry ∧
      ((-5 : Int) ≤ (preheating.time.tick.toNat : Int)) ∧ ePreHold preheatEntry ≠ 0) ∧
    (domSt (domIn 17 { Dom.init with st := .banked, ret := true }) 17 = .banked) ∧
    (cool17.power.coolIdle ≠ 0 ∧ mayCool cool17 17 = true) ∧ ({ w0 0 with power := { (w0 0).power with coolIdle := 0 } } : State).power.coolIdle = 0 := by
  decide +kernel

theorem wit_ResetPinsReturnTheBlockToReset : rst0.pins.rstN = true ∧ rst0.pins.testMode = false ∧
    ({ rst0 with pins := { rst0.pins with rstN := false } } : State).pins.rstN = false ∧
    ({ rst0 with pins := { rst0.pins with testMode := true } } : State).pins.testMode = true := by decide

theorem wit_AccessesWithoutARegisterChangeNothing :
    (portLive rst0 = true ∧ (0x5008 : BitVec 25).toNat % 8 = 0 ∧ hearthHole rst0 (0x5008 : BitVec 25).toNat = false ∧ regAt rst0 (0x5008 : BitVec 25).toNat = none) ∧
    ((regAt rst0 (0x10000 : BitVec 25).toNat).isSome = true ∧ regWarm rst0 (0x10000 : BitVec 25).toNat = false) ∧
    (portLive hearth0 = true ∧ (0x200000 : BitVec 25).toNat % 8 = 0 ∧ hearthHole hearth0 (0x200000 : BitVec 25).toNat = true) ∧
    portLive { rst0 with pins := { rst0.pins with testMode := true } } = false := by decide +kernel

theorem wit_OneRegisterHasOneMeaning : portLive (w0 0) = true ∧ (0x2018 : BitVec 25).toNat % 8 = 0 ∧
    ({ rst0 with pins := { rst0.pins with rstN := false } } : State).pins.rstN = false ∧ hearthHole (w0 0) (0x2018 : BitVec 25).toNat = false ∧
    (regAt (w0 0) (0x2018 : BitVec 25).toNat).isSome = true ∧ regWarm (w0 0) (0x2018 : BitVec 25).toNat = true ∧ (0x2018 : BitVec 25) ≠ 0x2000 ∧
    (0x2018 : BitVec 25).toNat < 0x200000 := by decide +kernel

theorem wit_TallyReadIsTakenWhole : portLive (w0 0) = true ∧ (w0 0).params.hearthOnly = false ∧ warm (w0 0) (1 + (575 : Fin 576).val / 36) = true := by
  decide +kernel
theorem wit_HostReadsAndSetsTheTick : (portLive idle0 = true ∧ isCoordinator idle0 = true ∧ idle0.step.state = .idle ∧
      idle0.time.launchPending = false) ∧ isCoordinator rst0 = false ∧
    (master0.time.state = .master ∧ isCoordinator master0 = true ∧ master0.time.confirmedOnce = false ∧ master0.step.state = .idle) ∧
    rst0.time.state ≠ .master ∧ clockRuns rst0 false = false := by decide +kernel

theorem wit_LaunchIsArmedOrRefusedWithItsReason : (portLive rst0 = true ∧ (1 : Word).getLsbD 0 = true ∧ isCoordinator rst0 = false) ∧
    (isCoordinator idle0 = true ∧ idle0.time.state ≠ .master) ∧
    (isCoordinator { master0 with time := { master0.time with sysConfirm := false } } = true) ∧
    (launchReason { master0 with step := { master0.step with state := .armed } } = 3) ∧ (launchReason idle0 ≠ 0) ∧
    (launchReason { master0 with time := { master0.time with launchTick := 100000000 } } = 0) := by decide +kernel

theorem wit_TimeIsExchangedAndLost : (timeLive (w0 0) (linkNo (.port 0)) 0 = false) ∧
    (timeLive link0 (linkNo (.port 0)) 0 = true ∧ isEth link0 (linkNo (.port 0)) = false) ∧
    ((inboxOf (mgmtOf timeMsg) link0).inbox[0]? = some { src := .link (.port 0) 0, vc := 4, body := .mgmt timeMsg } ∧ mType timeMsg = 1 ∧
      timeLive (inboxOf (mgmtOf timeMsg) link0) (linkNo (.port 0)) 0 = true ∧ timeMsg.m1.extractLsb' 32 32 ≠ 0) ∧
    ({ w0 0 with time := { (w0 0).time with state := .locked } } : State).time.state = .locked ∧
    ({ w0 0 with time := { (w0 0).time with state := .holdover } } : State).time.state = .holdover ∧ (w0 0).time.state ≠ .locked := by decide +kernel

theorem wit_EventsJoinTheLog : (logging []).log.queue = [] ∧
    ((logging [ev0]).log.filling = false ∧ (logging [ev0]).log.disabled = false ∧ logStopped (logging [ev0]) = false ∧
      (logging [ev0]).log.queue = ev0 :: [] ∧ (logging [ev0]).log.writeSeq = 0) ∧
    (logged.log.filling = false ∧ logged.log.queue = ev0 :: [] ∧ logStopped logged = false ∧ logged.log.writeSeq ≠ 0 ∧
      coalesces ev0 (logSlot logged (lastSlot logged)) = true) ∧
    ((logging (List.replicate 63 ev0)).log.queue.length ≤ 63 ∧ (logging (List.replicate 63 ev0)).log.queue.length = 63 ∧
      (logging (List.replicate 63 ev0)).log.disabled = false) := by decide +kernel

theorem wit_LogIsReadClearedAndForwarded : (portLive (w0 0) = true ∧ (0x80000 : Word).getLsbD 19 = true) ∧
    ((inboxOf (mgmtOf fwdMsg) (w0 0)).inbox[0]? = some (mgmtOf fwdMsg) ∧ mType fwdMsg = 7 ∧ mDest fwdMsg = me (w0 0) ∧
      (w0 0).log.disabled = false ∧ (w0 0).log.queue.length < 63) := by decide +kernel

theorem wit_FreezesAreArmedAndCaptured : (portLive (frz master0) = true ∧ (0x8000000000000000 : Word).extractLsb' 61 3 = 4 ∧
      isCoordinator (frz master0) = true ∧ (frz master0).time.state = .master ∧ freezePending (frz master0) = false ∧
      (frz master0).time.tick.toNat + 10000 ≤ (frz master0).freeze.tickReg.toNat) ∧
    (freezePending { master0 with freeze := { master0.freeze with pendingSys := some af0 } } = true) ∧ (isCoordinator rst0 = false) ∧
    ((0x4000000000000000 : Word).extractLsb' 61 3 = 2 ∧ (0x2000000000000000 : Word).extractLsb' 61 3 = 1) ∧
    ((inboxOf (mgmtOf freezeMsg) (w0 0)).inbox[0]? = some (mgmtOf freezeMsg) ∧ mType freezeMsg = 6 ∧ mDest freezeMsg = 0xFFFFFF ∧
      freezeMsg.m2.extractLsb' 48 16 ≠ 0 ∧ (w0 0).freeze.lastId < freezeMsg.m2.extractLsb' 48 16 ∧ (w0 0).time.tick < freezeMsg.m1) ∧
    (af0 ∈ armedFreezes due0 ∧ af0.tick.toNat ≤ due0.time.tick.toNat + 3200) ∧
    (dueFreeze due0 = some af0 ∧ due0.log.disabled = false ∧ due0.freeze.held = false) ∧
    (dueFreeze { due0 with freeze := { due0.freeze with held := true } } = some af0) := by decide +kernel

theorem wit_InjectorsAreArmedAndReleased :
    (portLive (w0 0) = true ∧ (0 : Word).getLsbD 63 = (w0 0).inject.enable ∧ (0x8000000000000000 : Word).getLsbD 63 ≠ (w0 0).inject.enable) ∧
    (warm (w0 0) (33 + 17) = true ∧ warm (w0 0) (51 + 5) = true ∧ (injAt (w0 0) 23).armed = false ∧
      (0x0100000000000000 : Word).getLsbD 56 = true ∧ (0x0100000000000000 : Word).getLsbD 55 = false) ∧
    ((injAt (injIn 0 { Injector.init with armed := true } (w0 0)) 0).armed = true ∧ (0x0080000000000000 : Word).getLsbD 55 = true) ∧
    ((injAt (w0 0) 0).reorder = none) ∧
    (isEth (injIn 0 { Injector.init with reorder := some waiting0 } link0) 0 = false ∧
      (injAt (injIn 0 { Injector.init with reorder := some waiting0 } link0) 0).reorder = some waiting0 ∧
      waiting0.vc < (linkAt (injIn 0 { Injector.init with reorder := some waiting0 } link0) 0).chans.length) := by decide +kernel

theorem wit_FlitsAreReadAsTheyWereWritten : ({ nopFlit with creds := some (7, 31), seq := 4095 } : Flit).vc < 8 ∧ 4095 < 4096 ∧ 7 < 8 ∧ 31 < 32 ∧
    nopFlit.body.length ≤ 248 ∧ nopFlit.flipCord = none ∧ nopFlit.flipFlit = none := by decide

theorem wit_CorruptFlitsAlwaysFailTheirCrc : nopFlit.body.length ≤ 248 ∧ nopFlit.flipCord = none ∧ (0x800001 : BitVec 24) ≠ 0 ∧ 3 ≤ 253 ∧
    253 + maskBytes 0x800001 ≤ 256 := by decide

theorem wit_ArbiterGrantsOneFlit : (flitsPass link0 0 = true ∧ (linkAt link0 0).txq.length < 64 ∧ (linkAt link0 0).resend = [] ∧
      nextGrant (chanReady link0 0) (weights link0) 7 (linkAt link0 0).turn (linkAt link0 0).taken = none) ∧
    (flitsPass queued0 0 = true ∧ queued0.inject.enable = false ∧ (injAt queued0 0).reorder = none ∧
      nextGrant (chanReady queued0 0) (weights queued0) 7 (linkAt queued0 0).turn (linkAt queued0 0).taken = some (0, 1) ∧
      (chanAt (linkAt queued0 0) 0).queue = { cord := cord0, sent := 0, flow := 0, again := false, void := false, mark := none } :: [] ∧ isP2 queued0 0 = false) := by decide +kernel

set_option maxRecDepth 20000 in
theorem wit_FlitsAreTakenInSequence : (([] : List Byte).length ≠ 256) ∧ (okFlit.length = 256 ∧ flitsPass (w0 0) 0 = false) ∧
    (flitsPass link0 0 = true ∧ flitOk (zeros 255 ++ [1]) = false) ∧
    (flitOk okFlit = true ∧ bitOf (wordAt okFlit 0) 57 = true ∧ fieldOf (wordAt okFlit 0) 45 12 = ((linkAt link0 0).ackSeq + 1).toNat) ∧
    (fieldOf (wordAt okFlit 0) 45 12 ≠ ((linkAt (linkIn 0 { up0 0 with ackSeq := 5 } (w0 0)) 0).ackSeq + 1).toNat) := by decide +kernel

theorem wit_PortTimersRepeatAndReplay : (portUp link0 0 = true ∧ (linkAt link0 0).nakOut = false ∧ (linkAt link0 0).replay = []) ∧
    (portUp (linkIn 0 { up0 0 with nakOut := true, ackDue := 1, replay := [nopFlit], replays := 6 } (w0 0)) 0 = true) := by decide +kernel

theorem wit_TrainingEndsInLinkUpOrFailure :
    (portCfg (training0 0 (LinkSt.init 0)) 0 = some port0 ∧ (linkAt (training0 0 (LinkSt.init 0)) 0).state = .training ∧
      (linkAt (training0 0 (LinkSt.init 0)) 0).rewiden = none ∧ trained (training0 0 (LinkSt.init 0)) 0 = false ∧ port0.mode ≠ 3 ∧
      (1 : BitVec 2).toNat = port0.rate ∧ (0xFF : BitVec 8) &&& widthMask port0.width = widthMask port0.width) ∧
    ((0xFF : BitVec 8) &&& (up0 0).lanesGood = (up0 0).lanesGood) ∧
    (modCfg (training0 18 (LinkSt.init 18)) 0 = some mod0 ∧ (linkAt (training0 18 (LinkSt.init 18)) 18).state = .training ∧
      trained (training0 18 (LinkSt.init 18)) 18 = false ∧ (4 : BitVec 6) ≠ 0 ∧ mod0.minRate ≤ (4 : BitVec 6).toNat) ∧
    ((inboxOf (ctrlFrom linkIdMsg) (training0 0 (up0 0))).inbox[0]? = some (ctrlFrom linkIdMsg) ∧ mType linkIdMsg = 1 ∧
      trained (training0 0 (up0 0)) 0 = true ∧
      expectedId (training0 0 (up0 0)) 0 = some (fieldOf linkIdMsg.m0 32 24, fieldOf linkIdMsg.m0 24 8, fieldOf linkIdMsg.m0 16 8, fieldOf linkIdMsg.m0 8 8) ∧
      fieldOf linkIdMsg.m1 32 32 = fieldOf (planWord (training0 0 (up0 0)) 3) 32 32) := by decide +kernel

theorem wit_TrainingBoundsFailTheLink : ((linkAt (training0 0 (LinkSt.init 0)) 0).state = .training ∧ (LinkSt.init 0).rewiden = none ∧
      worstLane { up0 0 with state := .retraining } = none ∧ isEth (training0 0 (LinkSt.init 0)) 0 = false ∧
      trained (training0 0 (LinkSt.init 0)) 0 = false ∧ (training0 0 (LinkSt.init 0)).kindle.peerSeen = []) ∧
    ((linkAt (linkIn 0 (up0 0) idle0) 0).state = .up ∧ (linkIn 0 (up0 0) idle0).step.state = .idle) := by decide +kernel

theorem wit_LanesAreGivenUpAndRegained :
    (laneActive link0 ((5 : Fin 144).val / 8) ((5 : Fin 144).val % 8) = true ∧ isEth link0 0 = false ∧ (linkAt link0 0).degrade = none ∧
      narrower (linkAt link0 0).width.toNat ((linkAt link0 0).lanesGood &&& ~~~(BitVec.ofNat 8 (2 ^ 5))) = some (1, 0x0F)) ∧
    (narrower 0 ((1 : BitVec 8) &&& ~~~(BitVec.ofNat 8 (2 ^ 0))) = none) ∧
    (portUp link0 0 = true ∧ mType (degradeMsg 4) = 4 ∧ mType (degradeMsg 5) = 5) ∧
    (let n := linkIn 0 { up0 0 with width := 1, lanesGood := 0x0F } idle0
     portLive n = true ∧ warm n 33 = true ∧ (0x8000000000000000 : Word).getLsbD 63 = true ∧ portCfg n 0 = some port0 ∧
      (linkAt n 0).width.toNat < port0.width ∧ portUp n 0 = true ∧ running n = false) ∧ (running link0 = true) ∧
    ((linkAt (linkIn 18 (up0 18) (w0 0)) 18).state = .up ∧ isBanked (linkIn 18 (up0 18) (w0 0)) = false) := by decide +kernel

theorem wit_SparesTakeOver : (inboxOf { src := .link (.port 1) 0, vc := 4, body := .ctrl (takeMsg 6) } spare0).inbox[0]? =
      some { src := .link (.port 1) 0, vc := 4, body := .ctrl (takeMsg 6) } ∧ isEth spare0 1 = false ∧ mType (takeMsg 6) = 6 ∧
    (linkAt spare0 1).state = .up ∧ (linkAt spare0 1).role = 1 ∧ facing spare0 1 (fieldOf (takeMsg 6).m0 48 8) = some 0 ∧
    mType (takeMsg 7) = 7 ∧ (linkAt (linkIn 1 { up0 1 with taking := some 0 } spare0) 1).taking = some (fieldOf (takeMsg 7).m0 48 8) := by decide +kernel

theorem wit_RingStopsInjectWithCredits : stopRuns ring0 1 = true ∧ segFull ring0 1 = false ∧ ring0.power.eastClosed = false ∧
    (∃ r : Fin 8, slotFor ring0 1 r.val = true ∧ ringHead ring0 1 r.val 0 = some (item0, 0) ∧
      ringGrant (ringReady ring0 1 r.val) (weights ring0) 7 (smGet (0, 0) ring0.fabric.turns (8 * 1 + r.val)).1
        (smGet (0, 0) ring0.fabric.turns (8 * 1 + r.val)).2 = some (0, 1)) ∧
    (1 ∉ smGet [] ring0.fabric.reserved 0) := by decide +kernel

theorem wit_StrayHallFramesAreDropped : ethLive eth0 2 = true ∧ effPort eth0 2 = some portEth ∧ (hallFrame 1 0 false).fcsOk = false ∧
    (hallFrame 1 0 true).fcsOk = true ∧ ({ hallFrame 1 0 true with pause := true } : HallFrame).pause = true := by decide +kernel

theorem wit_HallFlowsAcknowledgeAndRetransmit :
    (ethLive eth0 2 = true ∧ effPort eth0 2 = some portEth ∧ (hallFrame 1 0 true).fcsOk = true ∧ (hallFrame 1 0 true).pause = false ∧
      (hallFrame 1 0 true).etherType = portEth.etherType ∧ (hallFrame 1 0 true).dstMac = portEth.srcMac ∧
      flowNamed eth0 2 (hallFrame 1 0 true).h4 = some 0 ∧
      (hallFrame 1 0 true).body.length = max (fieldOf (hallFrame 1 0 true).h0 32 16) (minBody false) ∧ (flowAt eth0 2 0).state ≠ 3 ∧
      fieldOf (hallFrame 1 0 true).h0 56 8 = 1 ∧ fieldOf (hallFrame 1 0 true).h0 52 4 = 1 ∧ (flowAt eth0 2 0).units = []) ∧
    (fieldOf (hallFrame 0 0 true).h0 52 4 = 0 ∧ fieldOf (hallFrame 0 0 true).h0 48 1 = 0 ∧
      BitVec.ofNat 32 (fieldOf (hallFrame 0 0 true).h0 0 32) = (flowAt eth0 2 0).rxAck ∧ (flowAt eth0 2 0).rxAck ≠ 0 ∧
      (flowAt eth0 2 0).heldUnits = [] ∧ (pickBuf eth0 0).isSome = true) ∧
    (let n := linkIn 2 { up0 2 with flows := [(0, { Flow.init with state := 2, ackOwed := true, units := [unit0] })] } (w0 0)
     (flowAt n 2 0).ackOwed = true ∧ (linkAt n 2).txFrames = [] ∧ (flowAt n 2 0).units = [unit0] ∧ unit0.resend = [] ∧ unit0.lastTx ≠ 0 ∧
      unit0.sends < 31 ∧ (flowAt n 2 0).state = 2) ∧
    (isEth (training0 2 (LinkSt.init 2)) 2 = true ∧ effPort (training0 2 (LinkSt.init 2)) 2 = some portEth ∧
      (linkAt (training0 2 (LinkSt.init 2)) 2).state = .training) := by decide +kernel
theorem wit_TileCountersAddAndSaturate : leafLive rst0 0 = false ∧ leafLive (w0 0) 575 = true ∧
    leafLive (leafIn open0 (w0 0)) 0 = true ∧ (leafAt (leafIn open0 (w0 0)) 0).stepOpen = true ∧ 2 ≤ (3 : BitVec 2).toNat := by decide +kernel

theorem wit_TriggersIssueTheirCordsOnce : tr0.issued ≤ trCount tr0.w1 ∧ ({ tr0 with armed := false } : Trig).armed = false ∧ 0 < tr0.threshold ∧
    tr0.issued < trCount tr0.w1 ∧ trCount tr0.w1 ≤ tr0.issued + 2 ∧ (fireLoop (entryOf 0) 0 0 2 tr0 []).1.armed = true := by decide +kernel

theorem wit_LeavesReadTheirCords :
    (let n := feeding [nodeOf (segNode 0 0)]
     leafLive n 0 = true ∧ (leafAt n 0).reading = none ∧ (leafAt n 0).fireQ = fire0 :: [] ∧ entryAt n 0 = some (entryOf 0) ∧
      mayOffer n 0 fire0 = true ∧ fire0.kind = .data ∧ eKind (entryOf 0) ≠ 5 ∧ eKind (entryOf 0) ≠ 8 ∧
      (leafAt n 0).trigs.find? (fun x => x.slot == 0) = some tr0 ∧ srMaskLine (smGet 0 (leafAt n 0).rings (trRing tr0.w0)) = true) ∧
    (mayOffer (feeding []) 0 fire0 = false ∧ (leafAt (feeding []) 0).restoreQ = []) ∧
    ((leafAt (readingIn read0) 0).reading = some read0 ∧ read0.want ≠ [] ∧ read0.stalled = false) ∧
    (entryAt (readingIn granted0) 0 = some (entryOf 0) ∧ granted0.wait ≠ [] ∧
      (takeBeat (entryOf 0) (leafAt (readingIn granted0) 0) (BitVec.allOnes 512) granted0).want ≠ []) ∧
    ((takeBeat (entryOf 0) (leafAt (readingIn lastBeat0) 0) 0 lastBeat0).want = [] ∧
      (takeBeat (entryOf 0) (leafAt (readingIn lastBeat0) 0) 0 lastBeat0).wait = []) := by decide +kernel

theorem wit_LeavesWriteWhatLands :
    (leafLive landing0 0 = true ∧ (leafAt landing0 0).writing = none ∧ (leafAt landing0 0).recQ = [] ∧
      (leafAt landing0 0).landQ = { slot := 0, buf := none, seq := 0, cord := cordOf 0 1 0 } :: [] ∧
      (leafAt landing0 0).lands.find? (fun y => y.slot == 0) = some land0 ∧ entryAt landing0 (cPlan (cordOf 0 1 0)) = some (entryOf 0)) ∧
    ((leafAt (writingIn [beat0 .row, beat0 .record]) 0).writing = some (write0 [beat0 .row, beat0 .record]) ∧
      (write0 [beat0 .row, beat0 .record]).beats = beat0 .row :: beat0 .record :: [] ∧ (beat0 .row).kind = .row ∧
      (write0 [beat0 .stepRec]).beats = [beat0 .stepRec] ∧ (beat0 .stepRec).kind = .stepRec ∧ (beat0 .sealRec).kind = .sealRec ∧
      (write0 []).cord = some (cordOf 0 1 0) ∧ (write0 []).stalled = false) ∧ land0.met = true := by decide +kernel

theorem wit_SplicesMoveThePosition : ((w0 0).params.hearthOnly = false ∧ (w0 0).kindle.disabledTaken.getLsbD 0 = false ∧
      (w0 0).faults.retired.getLsbD 0 = false ∧ 0 ∉ idleSpares (w0 0) ∧ logicalOf (w0 0) 0 = some 0 ∧ (w0 0).faults.dieFailed = false ∧
      chooseSpare (w0 0) 0 = some 1 ∧ (w0 0).image.isSome = true ∧ portLive (w0 0) = true ∧
      (0x4000000000000000 : Word).extractLsb' 61 3 = 2 ∧ (0x4000000000000000 : Word).extractLsb' 51 10 = BitVec.ofNat 10 0) ∧
    (logicalOf noSpares 0 = some 0 ∧ chooseSpare noSpares 0 = none) := by decide +kernel

theorem wit_StepsOpenAndComplete : mayOpen toOpen false = true ∧ mayOpen halfOpened true = true ∧ mayOpen rst0 false = false ∧
    mayOpen rst0 true = false ∧ locallyComplete (w0 0) = true ∧ (w0 0).faults.dieFailed = false ∧ locallyComplete rst0 = false := by decide +kernel

theorem wit_CordsReachTheirNode : (at1.inbox[0]? = some upArr ∧ isUpward upArr (cordOf 0 1 0) = true) ∧
    (isReady rst0 = false ∧ isReady at1 = true ∧
      stepMatch { at1 with step := { at1.step with state := .halted } } upArr (cordOf 0 1 0) = 2 ∧ stepMatch at1 upArr (cordOf 0 1 0) = 0) ∧
    (entryAt { at1 with image := some { im0 0 with entries := [] } } 0 = none) ∧
    (entryAt at1 (cPlan (cordOf 0 1 0)) = some (entryOf 0) ∧ eOpActive (entryOf 0) (cStep (cordOf 0 1 0)) = true ∧
      cEpoch (cordOf 0 1 0) = epochOf at1 (eGroup (entryOf 0)) ∧ cKind (cordOf 0 1 0) ≤ 6 ∧ entryGroup at1 (entryOf 0) = some g0 ∧
      findNode at1 0 (nodeOfArrival at1 upArr (cordOf 0 1 0)).1 = some (nodeOf (nodeId 1 0)) ∧ cordFits at1 (entryOf 0) (cordOf 0 1 0) = true ∧
      (nodeOfArrival at1 upArr (cordOf 0 1 0)).2 ∈ cordChildren at1 (entryOf 0) g0 (nodeOfArrival at1 upArr (cordOf 0 1 0)).1 0 ∧
      2 ≤ (cordChildren at1 (entryOf 0) g0 (nodeOfArrival at1 upArr (cordOf 0 1 0)).1 0).length ∧
      handles at1 (nodeOf (nodeId 1 0)) 0 = true ∧ (nodeOf (nodeId 1 0)).closed.contains 0 = false ∧
      findOpen (nodeOf (nodeId 1 0)) 0 = none ∧ (nodeOf (nodeId 1 0)).admitted = true ∧ inWin (nodeOf (nodeId 1 0)) 0 = true ∧
      live at1 (nodeDom at1 (nodeOfArrival at1 upArr (cordOf 0 1 0)).1 0) = true) ∧
    (cEpoch { cordOf 0 1 0 with w0 := mkW0 5 0 0 0 7 1 } ≠ epochOf at1 (eGroup (entryOf 0))) := by decide +kernel

theorem wit_NodesCombineTheirOperands : (∀ n : Fin 3,
      findNode (combining0 n.val) 0 (nodeId 1 0) = some { nodeOf (nodeId 1 0) with opens := [openOf n.val] } ∧
      entryAt (combining0 n.val) 0 = some (entryOf 0) ∧ entryGroup (combining0 n.val) (entryOf 0) = some g0 ∧
      findOpen { nodeOf (nodeId 1 0) with opens := [openOf n.val] } 0 = some (openOf n.val) ∧ running (combining0 n.val) = true ∧
      eKind (entryOf 0) ≠ 5 ∧ 2 ≤ (cordChildren (combining0 n.val) (entryOf 0) g0 (nodeId 1 0) 0).length ∧
      (∀ k ∈ cordChildren (combining0 n.val) (entryOf 0) g0 (nodeId 1 0) 0, (openOf n.val).ops.any (fun q => q.child == k) = true) ∧
      live (combining0 n.val) (nodeDom (combining0 n.val) (nodeId 1 0) 0) = true) ∧
    (kilnFor (combining0 2) 0 = some 0 ∧ (nodeId 1 0).stage.val ≠ 0) ∧
    ((segNode 0 0).stage.val = 0 ∧ cordChildren segPair (entryOf 0) { g0 with topLevel := 0, members := [(0, 2)], tileSelect := 3 } (segNode 0 0) 0 = [0, 1] ∧
      live segPair (nodeDom segPair (segNode 0 0) 0) = true) ∧
    ((w0 0).kiln.bankWorking.getLsbD 7 = true ∧ live (w0 0) (25 + 7) = true) := by decide +kernel

theorem wit_ArrivalOrderDoesNotMatter : (openOf 0).ops.reverse.Perm (openOf 0).ops ∧ ((openOf 0).ops.map (fun q => q.child)).Nodup := by decide +kernel

theorem wit_RootsFinishAndDiesLand : (finish0.inbox[0]? = some rootArr ∧ entryAt finish0 (cPlan (cordOf 0 0 0)) = some (entryOf 0) ∧
      entryGroup finish0 (entryOf 0) = some g0 ∧ running rst0 = false ∧ running finish0 = true ∧ cStep (cordOf 0 0 0) = stepNo finish0 ∧
      live finish0 58 = true ∧ 1 ≤ g0.topLevel ∧ g0.topLevel ≤ 4) ∧
    (isReady (desc0 goodCord) = true ∧ stepMatch (desc0 goodCord) (downArr goodCord) goodCord = 0 ∧
      entryAt (desc0 goodCord) (cPlan goodCord) = some (entryOf 0) ∧ eOpActive (entryOf 0) (cStep goodCord) = true ∧
      cEpoch goodCord = epochOf (desc0 goodCord) (eGroup (entryOf 0)) ∧ isDescending (downArr goodCord) goodCord = true ∧ crcOk goodCord = true ∧
      findNode (desc0 goodCord) (cPlan goodCord) (nodeBelow (desc0 goodCord) (downArr goodCord) goodCord) = some (nodeOf (nodeId 0 0)) ∧
      (nodeBelow (desc0 goodCord) (downArr goodCord) goodCord).stage.val = 1 ∧
      live (desc0 goodCord) (nodeDom (desc0 goodCord) (nodeBelow (desc0 goodCord) (downArr goodCord) goodCord) (cIdx goodCord)) = true ∧
      cordFits (desc0 goodCord) (entryOf 0) goodCord = true ∧ descends (desc0 goodCord) (nodeOf (nodeId 0 0)) (cIdx goodCord) = true ∧
      landKey goodCord ∉ (desc0 goodCord).kiln.landed ∧
      dieLandsCord (entryOf 0) (argNow (desc0 goodCord) (entryOf 0)) g0 (nodeBelow (desc0 goodCord) (downArr goodCord) goodCord).coord.toNat (cIdx goodCord) = true) ∧
    (crcOk (cordOf 0 0 0) = false ∧ stepMatch (desc0 (cordOf 0 0 0)) (downArr (cordOf 0 0 0)) (cordOf 0 0 0) = 0) ∧
    (mirror0.inbox[0]? = some ackArr ∧ ackArr.vc = 3 ∧ isMirrorAck ackCord0 = true ∧ entryAt mirror0 (cPlan ackCord0) = some (entryOf 8) ∧
      (cPlan ackCord0, cIdx ackCord0, cTile ackCord0) ∈ mirror0.step.mirrorOut) ∧
    (let c := cordOf 10 1 0
     restore0.inbox[0]? = some restArr ∧ cKind c = 10 ∧ (cPlan c, cIdx c, cTile c) ∈ restore0.faults.restoreDue ∧
      cRows c = rowsOfCord (entryOf 0) (posNow restore0 (entryOf 0)) (cIdx c) ∧ physOf restore0 (cTile c) = some 0 ∧
      (mirrorStaging restore0 (entryOf 0) (cTile c) (cIdx c)).isSome = true ∧ (leafAt restore0 0).writing = none ∧ (leafAt restore0 0).recQ = []) := by
  decide +kernel
theorem wit_ShortStepsAreAdmittedAndArmed : (running rst0 = false) ∧
    (running waiting1 = true ∧ clockRuns waiting1 false = true ∧ waiting1.kiln.waiting = (0, 0) :: [] ∧ claimAsked waiting1 0 ≤ freeClaimable waiting1) ∧
    (freeClaimable { waiting1 with kiln := { waiting1.kiln with bankWorking := 0 } } < claimAsked { waiting1 with kiln := { waiting1.kiln with bankWorking := 0 } } 0) ∧
    (∀ t ∈ [3, 4], mType (noticeMsg t 0) = t ∧ mDest (noticeMsg t 0) = me waiting1 ∧ stepNo waiting1 < fieldOf (noticeMsg t 1).m2 16 48 ∧
      fieldOf (noticeMsg t 0).m2 16 48 = stepNo waiting1 ∧ fieldOf (noticeMsg t 0).m2 0 16 = waiting1.step.attempt.toNat ∧
      findNode waiting1 (fieldOf (noticeMsg t 0).m1 52 12) (noticeNode (noticeMsg t 0)) = some { nodeOf (nodeId 1 0) with admitted := false } ∧
      fieldOf (noticeMsg t 0).m2 16 48 < stepNo { waiting1 with step := { waiting1.step with number := 1 } }) ∧
    (entryAt waiting1 0 = some (entryOf 0) ∧ eKind (entryOf 0) ≠ 7 ∧ entryGroup waiting1 (entryOf 0) = some g0 ∧
      entryAt (w0 7) 0 = some (entryOf 7) ∧ eKind (entryOf 7) = 7) ∧
    (mType (windowMsg 0) = 3 ∧ fieldOf (windowMsg 1).m1 16 48 ≠ stepNo (w0 0) ∧ fieldOf (windowMsg 0).m1 16 48 = stepNo (w0 0)) ∧
    (mType (drainMsg 0 0) = 2 ∧ fieldOf (drainMsg 1 0).m0 0 48 ≠ stepNo (w0 0) ∧ fieldOf (drainMsg 0 0).m0 0 48 = stepNo (w0 0) ∧
      fieldOf (drainMsg 0 0).m1 0 16 = (w0 0).step.attempt.toNat ∧ fieldOf (drainMsg 0 1).m1 0 16 ≠ (w0 0).step.attempt.toNat) := by decide +kernel

theorem wit_LaunchCheckArmsOrRefuses :
    (let s := sealIn 2 1 0 (zeros 128) idle0
     let a := sealArr 2 1 0 (zeros 128)
     let c := sealOf 2 1 (zeros 128)
     s.inbox[0]? = some a ∧ cKind c = 9 ∧ cIdx c = 2 ∧ isReady s = true ∧ groupNow s (sealGroup s) = some g0 ∧ a.vc = 0 ∧
      sealNodeOf s a c = (1, 0) ∧ sealKeyOf s g0 a c [] = 1 ∧ sealComputes s g0 1 0 2 = true ∧ 1 ∈ sealKeys s g0 1 0 ∧ 0 ∈ sealKeys s g0 1 0 ∧
      (sealCol s (nodeId 1 0) 2).rows = []) ∧
    (let s := sealIn 2 1 0 (zeros 128) (colIn 2 idle0)
     (sealCol s (nodeId 1 0) 2).rows = [(0, sealIdentity)] ∧ sealKeys s g0 1 0 = [0, 1] ∧ sealRootAt g0 1 0 = true) ∧
    (let s := sealIn 2 7 0 (zeros 128) idle0
     sealNodeOf s (sealArr 2 7 0 (zeros 128)) (sealOf 2 7 (zeros 128)) = (1, 0) ∧
     sealKeyOf s g0 (sealArr 2 7 0 (zeros 128)) (sealOf 2 7 (zeros 128)) [] = 7 ∧ 7 ∉ sealKeys s g0 1 0) ∧
    (let s := sealIn 2 0 1 (zeros 128) launching
     let a := sealArr 2 0 1 (zeros 128)
     let c := sealOf 2 0 (zeros 128)
     s.inbox[0]? = some a ∧ a.vc = 1 ∧ (sealBelow s g0 a c).1 = 0 ∧ feedNode s g0 (me s) = some (sealBelow s g0 a c) ∧ s.step.state = .idle ∧
      s.time.launchPending = true ∧ s.step.checkFed = true ∧ checkBad (rowOfBytes c.payload) = 0 ∧ checkBad (rowOfBytes badRow) ≠ 0) ∧
    idle0.time.launchPending = false := by decide +kernel

theorem wit_SealDecidesTheAttempt :
    (let s := sealIn 0 1 0 (zeros 128) (colIn 0 (w0 0))
     let a := sealArr 0 1 0 (zeros 128)
     let c := sealOf 0 1 (zeros 128)
     s.inbox[0]? = some a ∧ cKind c = 9 ∧ isReady s = true ∧ groupNow s (sealGroup s) = some g0 ∧ a.vc = 0 ∧ sealMatch s c = 0 ∧
      sealNodeOf s a c = (1, 0) ∧ sealKeyOf s g0 a c [] = 1 ∧ sealRootAt g0 1 0 = true ∧ sealKeys s g0 1 0 = [0, 1] ∧ sealComputes s g0 1 0 0 = true ∧
      sealCol s (nodeId 1 0) 0 = { node := nodeId 1 0, idx := 0, rows := [(0, sealIdentity)], bufs := [], sent := false } ∧ s.step.decided = none ∧
      s.step.broadcast = false) ∧
    (let s := sealIn 1 1 0 (zeros 128) (w0 0)
     sealMatch s (sealOf 1 1 (zeros 128)) = 0 ∧ cIdx (sealOf 1 1 (zeros 128)) = 1 ∧ sealComputes s g0 1 0 1 = true) ∧
    (∀ o ∈ [0, 1, 2, 3],
     let s := sealIn 0 0 1 (outcomeBytes o) (w0 0)
     let a := sealArr 0 0 1 (outcomeBytes o)
     let c := sealOf 0 0 (outcomeBytes o)
     s.inbox[0]? = some a ∧ a.vc = 1 ∧ cIdx c = 0 ∧ (sealBelow s g0 a c).1 = 0 ∧ feedNode s g0 (me s) = some (sealBelow s g0 a c) ∧
      cStep c = stepNo s ∧ awaitsSeal s = true ∧ s.faults.role ≠ .restoring ∧ lane (rowOfBytes c.payload) 5 = s.step.attempt.setWidth 32 ∧
      (lane (rowOfBytes c.payload) 0).toNat / 2 ^ 28 = o) ∧
    (cStep (sealOf 0 0 []) ≠ stepNo { w0 0 with step := { (w0 0).step with number := 9 } }) ∧
    ((lane (List.replicate 32 4) 10).getLsbD 2 = true ∧ (lane (List.replicate 32 1) 10).getLsbD 2 = false ∧
      lane (List.replicate 32 1) 8 ||| rootReasons (List.replicate 32 1) true ≠ 0 ∧
      (lane (List.replicate 32 0) 8 ||| rootReasons (List.replicate 32 0) false) = 0 ∧
      (lane (List.replicate 10 0 ++ [3]) 10).getLsbD 1 = true ∧ (lane (List.replicate 10 0 ++ [1]) 10).getLsbD 0 = true ∧
      lane (List.replicate 17 0 ++ [1]) 17 ≠ lane (List.replicate 17 0 ++ [1]) 20) := by decide +kernel

theorem wit_ChangesAreAppliedInSequence :
    (∀ p ∈ [(2, 1), (2, 2), (2, 4), (2, 7), (2, 8), (2, 0xC), (2, 0xD), (5, 2)],
      let m := chg p.1 0xFFFFFF p.2 1 1 6 7
      (chgIn m (w0 0)).inbox[0]? = some (mgmtOf m) ∧ mDest m = 0xFFFFFF ∧ mType m = p.1 ∧ pcKind m = p.2 ∧
        pcSeq m = (w0 0).faults.changeSeq.toNat + 1 ∧ (w0 0).faults.heldBack = []) ∧
    (let s := { w0 0 with faults := { (w0 0).faults with changeSeq := 1 } }
     pcSeq (chg 2 0xFFFFFF 1 1 1 6 7) ≤ s.faults.changeSeq.toNat) ∧
    ((w0 0).faults.changeSeq.toNat + 1 < pcSeq (chg 2 0xFFFFFF 1 2 1 6 7)) ∧
    (groupNow (w0 0) (pcGroup (chg 2 0xFFFFFF 1 1 1 6 7)) = some g0) ∧
    (let s := { w0 0 with kiln := { (w0 0).kiln with groups := [g0, { g0 with num := 1 }], roots := [(0, 5), (1, 6)] } }
     let m : Msg := { chg 2 0xFFFFFF 2 1 1 6 5 with m1 := putField 56 8 2 ||| putField 48 8 1 ||| 1 }
     groupNow s (pcGroup m) = some { g0 with num := 1 } ∧ 1 ≠ sealGroup s ∧ rootInst s 1 = pcOld m ∧ pcSeq m = 1) := by decide +kernel

theorem wit_CoordinatorRunsHoldsAndStandIns :
    (∀ p ∈ [(2, 3), (2, 5), (2, 6), (2, 9), (2, 0xB), (5, 1)],
      let m := chg p.1 5 p.2 0 1 6 8
      mDest m = me pooled ∧ mType m = p.1 ∧ pcKind m = p.2) ∧
    (isCoordinator pooled = true ∧ pooled.faults.dieFailed = false ∧ isCoordinator rst0 = false) ∧
    (let m := chg 2 5 3 0 1 6 0
     pcNoIndex m = false ∧ fieldOf (memberWord pooled (pcDie m)) 62 2 = 1 ∧ holderOf pooled (pcDie m) = pcOld m ∧ pooled.faults.offers = [] ∧
      (∀ p ∈ pooled.kiln.places, pcOld m ∉ p.entries) ∧ nextPool pooled (pcDie m) 0 = some (0, 8) ∧
      holderOf pooled (pcDie (chg 2 5 3 0 1 9 0)) ≠ pcOld (chg 2 5 3 0 1 9 0)) ∧
    (let m := chg 2 5 5 0 1 6 8
     offering.faults.offers.find? (fun x => x.die == pcDie m) = some offer0 ∧ pcDie m ∉ offering.faults.restoring ∧
      offer0.cand = some (BitVec.ofNat 24 (pcNew m)) ∧ offer0.cand ≠ some (BitVec.ofNat 24 (pcNew (chg 2 5 5 0 1 6 9))) ∧
      offering.faults.lastSeq = offering.faults.changeSeq ∧ offering.faults.heldBack = [] ∧ offering.faults.changeSeq.toNat + 1 < 2 ^ 32 ∧
      nextPool offering (pcDie m) offer0.next = some (1, 9)) ∧
    (pcKind (chg 2 5 0xA 0 0 0 0) = 0xA ∧ ({ w0 0 with faults := { (w0 0).faults with awaitAck := true } } : State).faults.awaitAck = true) ∧
    (openOffer { offering with time := { offering.time with tick := 100000 } } = some offer0) ∧
    (({ pooled with faults := { pooled.faults with holds := [{ die := 1, inst := 6, kind := .splice, since := 0 }] } } : State).faults.holds.find? (fun x => x.die == 1) =
      some { die := 1, inst := 6, kind := .splice, since := 0 }) ∧
    (portLive (w0 0) = true ∧ (0x8000000000000000 : Word).extractLsb' 61 3 = 4) := by decide +kernel

theorem wit_TimersWarnAndReport : running rst0 = false ∧
    (∀ w : Bool, running (skewed w) = true ∧ findNode (skewed w) 0 (nodeId 1 0) = some { nodeOf (nodeId 1 0) with opens := [waitingCord0], skewWarned := w } ∧
      entryAt (skewed w) 0 = some (entryOf 0) ∧ entryGroup (skewed w) (entryOf 0) = some g0 ∧
      waitingCord0.ops ≠ [] ∧ waitingCord0.ops.length < (cordChildren (skewed w) (entryOf 0) g0 (nodeId 1 0) 0).length ∧
      (skewed w).faults.paused = false ∧ skewThreshold (skewed w) g0 (nodeLevel (nodeId 1 0)) < skewWait (skewed w) waitingCord0) ∧
    (toWarn rst0 0 0 4 = [] ∧ toWarn (skewed false) 0 0 4 ≠ [] ∧ smoulders (skewed false) 0 0 4 (fun x => x.boundMs * 100000) ≠ []) ∧
    (mDest reportMsg = me (w0 0) ∧ mType reportMsg = 5 ∧ pcKind reportMsg = 1 ∧ isCoordinator (w0 0) = true ∧ (w0 0).faults.dieFailed = false ∧
      reportMsg.m2 = stepContext (w0 0) ∧ running (w0 0) = true ∧ firebroken (w0 0) = false ∧ culpritGone reportMsg (w0 0) = false ∧
      (chg 5 5 1 0 1 0 0).m2 ≠ stepContext { w0 0 with step := { (w0 0).step with attempt := 1 } }) ∧
    (rst0.faults.collecting = none ∧ (collecting0 99999).faults.collecting = some 0 ∧ isCoordinator (collecting0 99999) = true ∧
      (collecting0 99999).time.tick.toNat < (0 : Word).toNat + 100000 ∧ (0 : Word).toNat + 100000 ≤ (collecting0 100000).time.tick.toNat ∧
      chooseReport [] = none ∧ (chooseReport (collecting0 100000).faults.reports).isSome = true) := by decide +kernel

theorem wit_FailedDiesFallSilent : (portLive (w0 0) = true ∧ (0x2000000000000000 : Word).extractLsb' 61 3 = 1 ∧ isReady (w0 0) = true ∧
      (w0 0).faults.dieFailed = false ∧ isReady rst0 = false) ∧
    (({ w0 0 with faults := { (w0 0).faults with dieFailed := true } } : State).faults.silenced = false) ∧
    (spliceValid 0 (w0 0) = false) ∧ (spliceValid (bitAt 63 true ||| putField 52 10 0 ||| putField 42 10 1) idle0 = true) ∧
    (mDest (chg 2 9 3 0 0 0 0) ≠ me (w0 0) ∧ mDest (chg 2 9 3 0 0 0 0) ≠ 0xFFFFFF) := by decide +kernel

theorem wit_CombineListAppliesOpOncePerPair : opSum.fn = 0 ∧ opSum.fmt = 5 ∧
    2 ^ 31 ≤ (BitVec.ofNat 32 0x7FFFFFFF).toInt + (BitVec.ofNat 32 1).toInt ∧
    ([none, some 7] : List (Option Nat)) ≠ [] ∧ ([none, some 7] : List (Option Nat)).length ≤ 2 ∧ some 7 ∈ ([none, some 7] : List (Option Nat)) ∧
    (∀ y ∈ ([none, some 7] : List (Option Nat)), y = none ∨ y = some 7) ∧ ([none, some 7] : List (Option Nat)).count (some 7) = 1 := by decide


/-! ### Further clauses of the statements, each with a state that meets its hypotheses -/

def kindledS : State := { rst0 with kindle := { rst0.kindle with state := .kindled } }
def stage7t : State := linkIn 0 { LinkSt.init 0 with state := .training } { stage 7 with image := some (im0 0) }
def leavingSoon : State := domIn 17 { asking with leave := some true }
def halfDown (d : Dom) : State := let s := domIn 17 d; { s with power := { s.power with doms := smSet Dom.init s.power.doms 60 Dom.init } }
def coded (w e : Option (BitVec 3)) (s : State) : State := { s with power := { s.power with codeW := w, codeE := e } }
def pllsOff : State := { w0 0 with power := { (w0 0).power with pllW := false, pllE := false } }

theorem wit_IdleStepIsOneEmberEdge_2 : rst0.pending = [] ∧ portLive rst0 = true ∧ (-200000 : Int) ≤ rst0.time.ratePpb ∧
    rst0.time.ratePpb ≤ 200000 ∧ rst0.time.tick.toNat + 2 < 2 ^ 64 := by decide +kernel

theorem wit_DisabledTilesAreTakenAtTheNextKindling_2 : (portLive lockedAnchor = true ∧ (1 : Word).getLsbD 0 = true ∧
      lockedAnchor.kindle.state = .cold ∧ lockedAnchor.kindle.anchorLocked = true ∧ lockedAnchor.kindle.instanceId ≠ 0xFFFFFF ∧
      lockedAnchor.pins.needRstPulse = false) ∧
    (portLive banked0 = true ∧ banked0.params.hearthOnly = false ∧ banked0.power.banked = true) ∧ hearth0.params.hearthOnly = true := by
  decide +kernel

theorem wit_KindleRequestStartsKindling_2 :
    (portLive idle0 = true ∧ idle0.kindle.state = .ready ∧ idle0.power.banked = false ∧ idle0.step.state = .idle) ∧
    (portLive banked0 = true ∧ banked0.kindle.state = .ready ∧ banked0.power.banked = true ∧ banked0.kindle.afterWake = false ∧
      banked0.power.waking = false) ∧
    (portLive rst0 = true ∧ rst0.kindle.state = .cold ∧ rst0.kindle.anchorLocked = false) ∧
    (portLive (w0 0) = true ∧ (w0 0).kindle.state = .ready ∧ (w0 0).power.banked = false ∧ (w0 0).step.state ≠ .idle ∧
      (w0 0).step.state ≠ .halted) ∧
    (portLive kindledS = true ∧ kindledS.kindle.state = .kindled ∧ (0 : Word).getLsbD 0 = false) := by decide +kernel

theorem wit_ImageIsReadAndAuthenticated_2 : rst0.kindle.state ≠ .kindling ∧ (zeros 256).length = 256 := by decide +kernel

theorem wit_StageTimeoutFailsKindling_2 :
    ((∀ n : Fin 5, (stage (n.val + 1)).kindle.state = .kindling ∧ 1 ≤ (stage (n.val + 1)).kindle.stage ∧ (stage (n.val + 1)).kindle.stage ≤ 5) ∧
      stage7.kindle.state = .kindling ∧ stage7.kindle.stage = 7 ∧ (List.range 24).all (settled stage7) = true) ∧
    (stage7t.kindle.state = .kindling ∧ stage7t.kindle.stage = 7 ∧ (List.range 24).all (settled stage7t) = false ∧
      (linkAt stage7t 0).state = .training) ∧
    (rst0.kindle.state = .cold ∧ kindledS.kindle.state = .kindled ∧ (w0 0).kindle.state = .ready) := by decide +kernel

theorem wit_GrantsMoveADomain_2 :
    ((dom (domIn 17 asking) 17).leave = none ∧ (∀ c, clockDom 17 = some c → warm (domIn 17 asking) c = true) ∧
      (dom (domIn 62 { asking with req := true }) 62).req = true ∧ ∀ c, clockDom 62 = some c → warm (domIn 62 asking) c = true) ∧
    (∀ off : Bool, (dom (domIn 17 { asking with leave := some off }) 17).leave = some off ∧
      (dom (domIn 17 { asking with leave := some off }) 17).req = true ∧ (dom (domIn 17 { asking with leave := some off }) 17).gnt = false) ∧
    ((dom (halfDown asking) 17).req = true ∧ (dom (halfDown asking) 17).gnt = false ∧ (dom (halfDown asking) 17).leave = none ∧
      clockDom 17 = some 60 ∧ warm (halfDown asking) 60 = false) ∧
    (let s := domIn 17 { leaving with wanted := true }
     (dom s 17).gnt = true ∧ (dom s 17).req = false ∧ (dom s 17).wanted = true ∧ implemented s 17 = true ∧ heldBanked s 17 = false) := by
  decide +kernel

theorem wit_PowerFaultCostsTheUnits_2 : ∀ d ∈ [0, 16, 17, 24, 25, 32, 33, 40, 56, 57, 58, 60, 61, 62, 63],
    implemented (w0 0) d = true ∧ (dom (w0 0) d).gnt = true ∧ (dom (w0 0) d).req = true ∧ running (w0 0) = true ∧
    (w0 0).faults.dieFailed = false := by decide +kernel

theorem wit_LateGrantsAreCountedAndLogged_2 : (dom (domIn 17 asking) 17).req = true ∧ (dom (domIn 17 asking) 17).gnt = false ∧ 200 ≤ 200 ∧
    (dom (domIn 17 { asking with lateCounted := true }) 17).lateCounted = true ∧ (domIn 17 asking).kindle.state = .ready ∧
    (let s := { domIn 17 asking with kindle := { (w0 0).kindle with state := .locked } }
     (dom s 17).req = true ∧ (dom s 17).gnt = false ∧ s.kindle.state = .locked) := by decide +kernel

theorem wit_ClocksLockAndThrottle_2 :
    ((dom (coded (some 3) none unlocked60) 60).gnt = true ∧ domSt (coded (some 3) none unlocked60) 60 = .waking ∧
      (coded (some 3) none unlocked60).power.codeW = some 3) ∧
    (∀ c ∈ [(2 : BitVec 3), 4], (dom (coded none (some c) unlocked61) 61).gnt = true ∧ domSt (coded none (some c) unlocked61) 61 = .waking ∧
      (coded none (some c) unlocked61).power.codeE = some c) ∧
    (pllsOff.power.pllW = false ∧ pllsOff.power.pllE = false ∧ (3 : BitVec 3).toNat ≤ 3 ∧ (4 : BitVec 3).toNat ≤ 4) ∧
    (5 ≤ (5 : BitVec 3).toNat ∧ (linkIn 10 (up0 10) (w0 0)).power.pllE = true ∧ eastLinkUp (linkIn 10 (up0 10) (w0 0)) = true ∧
      (4 : BitVec 3).toNat = 4) ∧
    (let s := { w0 0 with fabric := { (w0 0).fabric with items := [{ item0 with dests := [40], sent := [1] }] } }
     s.power.pllE = true ∧ eastLinkUp s = false ∧ eastBound s = true) ∧
    ((w0 0).power.eastClosed = false ∧ clockRuns unlocked61 true = false) := by decide +kernel

theorem wit_HostMovesTheBlockBetweenPowerStates_2 :
    (let b : Word := 0x8000000000000000
     (b.getLsbD 63 = true ∧ b.getLsbD 62 = false ∧ b.getLsbD 61 = false ∧ (0xC000000000000000 : Word).getLsbD 62 = true ∧
       (0 : Word).getLsbD 61 = false) ∧
     (portLive idle0 = true ∧ idle0.power.bankDrains = false ∧ idle0.power.banked = false ∧ ringsEmpty idle0 = true ∧ linkUp link0 0 = true) ∧
     (let s := { ring0 with step := idle0.step, fabric := { ring0.fabric with flight := [(0, [⟨1, 0, 1, false, []⟩])] } }
      portLive s = true ∧ s.kindle.state = .ready ∧ s.step.state = .idle ∧ s.power.bankDrains = false ∧ s.power.banked = false ∧
        ringsEmpty s = false) ∧
     ((w0 0).power.banked = false ∧ (w0 0).step.state = .opened ∧ (w0 0).step.state ≠ .armed) ∧
     (let s := { armed0 with step := { armed0.step with launch := 100000 } }
      portLive s = true ∧ s.power.banked = false ∧ s.step.state = .armed ∧ s.power.bankDrains = false ∧
        s.time.tick.toNat + (b.extractLsb' 16 16).toNat + 1000 ≤ s.step.launch.toNat) ∧
     (portLive banked0 = true ∧ banked0.power.banked = true ∧ banked0.power.bankDrains = false)) ∧
    (let w : Word := 0x4000000000000000
     w.getLsbD 62 = true ∧ w.getLsbD 63 = false ∧ w.getLsbD 61 = false ∧ banked0.power.waking = false ∧ (w0 0).power.banked = false) ∧
    (let e : Word := 0x2000000000000000
     e.getLsbD 61 = true ∧ e.getLsbD 63 = false ∧ e.getLsbD 62 = false ∧ (w0 0).power.banked = false ∧ (w0 0).step.state = .opened ∧
       banked0.power.banked = true ∧ idle0.step.state = .idle) := by decide +kernel

theorem wit_DomainsAreAskedForAndCooled_2 :
    (armed0.step.state = .armed ∧ { armed0 with step := { armed0.step with launch := 100000 } }.time.tick.toNat + armed0.power.openLead.toNat <
      100000) ∧
    (let s := { preheating with power := { preheating.power with preheatDue := [(0, 5)] } }
     s.power.preheatDue.find? (fun p => p.1 == 0) = some (0, 5) ∧ entryAt s 0 = some preheatEntry ∧ (s.time.tick.toNat : Int) < 5) ∧
    (entryAt (w0 0) 0 = some (entryOf 0) ∧ ePreHold (entryOf 0) = 0 ∧ eType (entryOf 0) = 0) ∧
    (let s := { domIn 1 { Dom.init with st := .banked, ret := true } with leaves := (feeding []).leaves }
     domSt s 1 = .banked ∧ (dom s 1).wanted = false ∧ heldBanked s 1 = false ∧ busyDom s 1 = true ∧ running s = true) ∧
    (domSt (w0 0) 1 ≠ .banked ∧ busyDom (w0 0) 17 = false) ∧
    (cool17.power.coolIdle ≠ 0 ∧ mayCool cool17 17 = true ∧ warm (domIn 17 Dom.init) 17 = false ∧ busyDom (feeding []) 1 = true) := by
  decide +kernel

theorem wit_ResetPinsReturnTheBlockToReset_2 :
    (let s : State := { rst0 with pins := { rst0.pins with rstN := false, testMode := true } }
     s.pins.rstN = false ∧ s.pins.testMode = true) ∧
    (let s : State := { rst0 with pins := { rst0.pins with rstN := false } }
     s.pins.rstN = false ∧ s.pins.testMode = false) := by decide +kernel

theorem wit_OneRegisterHasOneMeaning_2 :
    ((w0 0).params.hearthOnly = false ∧ (∀ j : Fin 24, warm (w0 0) (domLink j.val) = true) ∧ ∀ p : Fin 18, warm (w0 0) (33 + p.val) = true) ∧
    (let s : State := { rst0 with pins := { rst0.pins with testMode := true } }
     s.pins.testMode = true ∧ hearthHole s 0x2018 = false ∧ (regAt s 0x2018).isSome = true ∧ regWarm s 0x2018 = true ∧ tallyT0 0x2018 = none) ∧
    (let s : State := { rst0 with pins := { rst0.pins with rstN := false } }
     s.pins.rstN = false ∧ s.pins.testMode = false) := by decide +kernel

theorem wit_TallyReadIsTakenWhole_2 : (portLive rst0 = true ∧ rst0.params.hearthOnly = false ∧ warm rst0 (1 + (0 : Fin 576).val / 36) = false) ∧
    (portLive hearth0 = true ∧ hearth0.params.hearthOnly = true) := by decide +kernel

def masterAt (f : Time → Time) : State := { master0 with time := f master0.time }
def holdover (at_ now : Word) : State :=
  { w0 0 with time := { (w0 0).time with state := .holdover, holdoverSince := at_, tick := now } }

theorem wit_HostReadsAndSetsTheTick_2 :
    (portLive master0 = true ∧ isCoordinator master0 = true ∧ master0.step.state = .idle ∧ master0.time.launchPending = false ∧
      clockRuns master0 false = true) ∧
    (let s := masterAt (fun x => { x with launchPending := true })
     portLive s = true ∧ s.time.launchPending = true) ∧
    (portLive rst0 = true ∧ clockRuns rst0 false = false ∧ rst0.time.state ≠ .master) := by decide +kernel

theorem wit_LaunchIsArmedOrRefusedWithItsReason_2 :
    (portLive idle0 = true ∧ isCoordinator idle0 = true ∧ idle0.time.state ≠ .master) ∧
    (let s := masterAt (fun x => { x with sysConfirm := false })
     portLive s = true ∧ isCoordinator s = true ∧ s.time.state = .master ∧ s.time.sysConfirm = false) ∧
    (let s := { master0 with step := { master0.step with state := .armed } }
     isCoordinator s = true ∧ s.time.state = .master ∧ s.time.sysConfirm = true ∧ s.step.state ≠ .idle) ∧
    (isReady master0 = true ∧ master0.time.launchTick.toNat < master0.time.tick.toNat + policy master0 (fun p => p.launchLeadMin) 50000) ∧
    (∀ b : Bool, let s := masterAt (fun x => { x with launchTick := 100000000, launchPending := b })
     isCoordinator s = true ∧ s.time.state = .master ∧ s.time.sysConfirm = true ∧ s.step.state = .idle ∧ isReady s = true ∧
     ¬(s.time.launchTick.toNat < s.time.tick.toNat + policy s (fun p => p.launchLeadMin) 50000) ∧ s.time.launchPending = b ∧
     s.step.number ≠ 0xFFFFFFFFFFFF) ∧
    (let s := { master0 with step := { master0.step with number := 0xFFFFFFFFFFFF } }
     isCoordinator s = true ∧ s.step.number = 0xFFFFFFFFFFFF) := by decide +kernel

theorem wit_TimeIsExchangedAndLost_2 :
    (∃ f : Fin 64, isEth eth0 (linkNo (.port 2)) = true ∧
      timeLive { eth0 with image := some { im0 0 with ports := [port0, port0, { portEth with timeEn := true }] } } (linkNo (.port 2)) f.val = true) ∧
    ((inboxOf (mgmtOf timeMsg) (w0 0)).inbox[0]? = some (mgmtOf timeMsg) ∧ timeLive (inboxOf (mgmtOf timeMsg) (w0 0)) 0 0 = false) ∧
    ((holdover 0 1000000000).time.state = .holdover ∧
      (holdover 0 1000000000).time.holdoverSince.toNat + 100 * policy (holdover 0 1000000000) (fun p => p.holdoverUs) 20000 < 1000000000) ∧
    ((holdover 5 5).time.tick.toNat ≤ (holdover 5 5).time.holdoverSince.toNat + 100 * policy (holdover 5 5) (fun p => p.holdoverUs) 20000) := by
  decide +kernel

theorem wit_EventsJoinTheLog_2 : (logging [ev0]).log.queue.length < 63 ∧ (logging [ev0]).log.disabled = false ∧
    rst0.log.filling = true ∧ ({ w0 0 with log := { (w0 0).log with disabled := true } } : State).log.disabled = true := by decide +kernel

theorem wit_LogIsReadClearedAndForwarded_2 : portLive (w0 0) = true ∧ (0 : Word).getLsbD 19 = false ∧
    (let s := inboxOf (mgmtOf fwdMsg) { w0 0 with log := { (w0 0).log with disabled := true } }
     s.inbox[0]? = some (mgmtOf fwdMsg) ∧ mDest fwdMsg = me s ∧ s.log.disabled = true) := by decide +kernel

def askFreeze : Msg := { msgZero with m0 := putField 56 8 6 ||| putField 8 24 5, m1 := 50000 }

theorem wit_FreezesAreArmedAndCaptured_2 :
    ((0 : Word).extractLsb' 61 3 = 0 ∧ portLive rst0 = true ∧ isCoordinator rst0 = false) ∧
    (∀ s ∈ [idle0, { master0 with freeze := { master0.freeze with pendingSys := some af0 } }, master0], portLive s = true ∧ isCoordinator s = true ∧
      (s.time.state ≠ .master ∨ freezePending s = true ∨ s.freeze.tickReg.toNat < s.time.tick.toNat + 10000)) ∧
    (let s := inboxOf (mgmtOf freezeMsg) { w0 0 with time := { (w0 0).time with tick := 60000 } }
     s.inbox[0]? = some (mgmtOf freezeMsg) ∧ s.freeze.lastId < freezeMsg.m2.extractLsb' 48 16 ∧ freezeMsg.m1 ≤ s.time.tick ∧
       s.log.disabled = false ∧ s.freeze.held = false) ∧
    (freezeMsg.m2.extractLsb' 48 16 ≤ (1 : BitVec 16)) ∧
    (let s := inboxOf (mgmtOf askFreeze) master0
     s.inbox[0]? = some (mgmtOf askFreeze) ∧ mType askFreeze = 6 ∧ mDest askFreeze = me s ∧ askFreeze.m2.extractLsb' 48 16 = 0 ∧
       s.time.state = .master ∧ s.freeze.pendingSys = none ∧ s.time.tick.toNat + 10000 < 2 ^ 64) ∧
    (dueFreeze (w0 0) = none ∧ armedFreezes (w0 0) = []) := by decide +kernel

theorem wit_InjectorsAreArmedAndReleased_2 : ((injAt (injIn 0 { Injector.init with armed := true } (w0 0)) 0).armed = true ∧
      (0 : Word).getLsbD 55 = false ∧ warm (injIn 0 { Injector.init with armed := true } (w0 0)) (domLink 0) = true) ∧
    ((injAt (w0 0) 0).armed = false ∧ (0 : Word).getLsbD 56 = false) ∧ (injAt (w0 0) 0).reorder = none ∧
    (portLive (w0 0) = true ∧ (0 : Word).getLsbD 63 = false ∧
      ({ w0 0 with inject := { (w0 0).inject with enable := true } } : State).inject.enable = true) := by decide +kernel

/-- A port whose channels hold cords, messages and flits in many ways. -/
def chansOf (q : List TxCord) (c4 : Nat) : List Chan :=
  [{ Chan.init with credits := 3, queue := q }, Chan.init, Chan.init, Chan.init, { Chan.init with credits := c4 }]
def tx0 : TxCord := { cord := cord0, sent := 0, flow := 0, again := false, void := false, mark := none }
def mxTx : TxCord := { tx0 with cord := { cordOf 0 1 0 with w0 := setField (cordOf 0 1 0).w0 52 4 8 } }
def p2Port (s : State) : State := { s with image := some { im0 0 with ports := [{ port0 with mode := 2 }, port0, portEth] } }
def mxAtHead : State := p2Port (linkIn 0 { up0 0 with chans := chansOf [mxTx, tx0] 3 } (w0 0))

theorem wit_ArbiterGrantsOneFlit_2 :
    (isEth (w0 0) 0 = false ∧ flitsPass (w0 0) 0 = false) ∧
    (flitsPass mxAtHead 0 = true ∧ mxAtHead.inject.enable = false ∧ (injAt mxAtHead 0).reorder = none ∧
      (chanAt (linkAt mxAtHead 0) 0).queue = mxTx :: [tx0] ∧ mxTx.sent = 0 ∧ barred mxAtHead 0 mxTx.cord = true) ∧
    (let s := linkIn 0 { up0 0 with resend := [nopFlit] } (w0 0)
     flitsPass s 0 = true ∧ (∀ v : Fin 4, (chanAt (linkAt s 0) v.val).queue.head? = none) ∧ (linkAt s 0).resend ≠ []) ∧
    (let s := linkIn 0 { up0 0 with txq := List.replicate 64 nopFlit } (w0 0)
     flitsPass s 0 = true ∧ replayFull s 0 = false ∧ 64 ≤ (linkAt s 0).txq.length) ∧
    (let s := linkIn 0 { up0 0 with replay := List.replicate 512 nopFlit } (w0 0)
     flitsPass s 0 = true ∧ (linkAt s 0).resend = [] ∧ replayFull s 0 = true) ∧
    (∀ v : Bool, let s := linkIn 0 { up0 0 with turn := 4, vc4Ctrl := v, ctrlQ := [degradeMsg 4], mgmtQ := [timeMsg], chans := chansOf [] 3 } (w0 0)
     flitsPass s 0 = true ∧ (linkAt s 0).resend = [] ∧ replayFull s 0 = false ∧ (linkAt s 0).txq.length < 64 ∧ s.inject.enable = false ∧
     (∀ w : Fin 4, (chanAt (linkAt s 0) w.val).queue.head? = none) ∧
     nextGrant (chanReady s 0) (weights s) 7 (linkAt s 0).turn (linkAt s 0).taken = some (4, 1) ∧ ctrlReady (linkAt s 0) = [degradeMsg 4] ∧
     (linkAt s 0).vc4Ctrl = v ∧ (linkAt s 0).mgmtQ ≠ [] ∧ 0 < (chanAt (linkAt s 0) 4).credits) ∧
    (let s := linkIn 0 { up0 0 with turn := 4, ctrlQ := [], mgmtQ := [timeMsg], chans := chansOf [] 3 } (w0 0)
     nextGrant (chanReady s 0) (weights s) 7 (linkAt s 0).turn (linkAt s 0).taken = some (4, 1) ∧ ctrlReady (linkAt s 0) = []) := by decide +kernel

def ctrlBytes : List Byte := flitBytes false { ctrlFlit [linkIdMsg] with seqd := true, seq := 0 } 4095 false
def socBytes : List Byte := flitBytes false { nopFlit with seqd := true, seq := 0, soc := true, ctrl := false } 4095 false
def nopBytes (ack : Nat) : List Byte := flitBytes false { nopFlit with creds := some (2, 7) } ack false
def goodCheck : RxCheck := ⟨0, false, false, 0⟩

set_option maxRecDepth 20000 in
theorem wit_FlitsAreTakenInSequence_2 :
    (flitsPass link0 0 = true ∧ (nopBytes 0).length = 256 ∧ fecOk ⟨0, true, false, 0⟩ = false ∧ fecOk goodCheck = true ∧
      bitOf (wordAt (nopBytes 0) 0) 57 = false ∧ bitOf (wordAt okFlit 0) 57 = true ∧ flitOk (nopBytes 0) = true ∧ (linkAt link0 0).nakOut = false ∧
      (linkAt link0 0).replay = [] ∧ fieldOf (wordAt (nopBytes 0) 0) 29 3 = 2 ∧ 2 < (linkAt link0 0).chans.length) ∧
    (let x := { up0 0 with replay := [{ nopFlit with seq := 4 }, { nopFlit with seq := 5 }] }
     flitsPass (linkIn 0 x (w0 0)) 0 = true ∧ x.replay.findIdx? (fun f => f.seq.toNat == fieldOf (wordAt (nopBytes 4) 0) 33 12) = some 0 ∧
     bitOf (wordAt (nopBytes 4) 0) 32 = false ∧ ∀ f ∈ x.replay, f.last = false) ∧
    (ctrlBytes.length = 256 ∧ flitOk ctrlBytes = true ∧ bitOf (wordAt ctrlBytes 0) 57 = true ∧ bitOf (wordAt ctrlBytes 0) 60 = true ∧
      fieldOf (wordAt ctrlBytes 0) 45 12 = ((linkAt link0 0).ackSeq + 1).toNat ∧ ∀ m ∈ slotsOf (ctrlBytes.drop 8), mType m ∈ [0, 1, 2, 4, 5, 6, 7]) ∧
    (socBytes.length = 256 ∧ flitOk socBytes = true ∧ bitOf (wordAt socBytes 0) 57 = true ∧ bitOf (wordAt socBytes 0) 60 = false ∧
      bitOf (wordAt socBytes 0) 58 = false ∧ fieldOf (wordAt socBytes 0) 61 3 = (0 : Fin 4).val ∧
      fieldOf (wordAt socBytes 0) 45 12 = ((linkAt link0 0).ackSeq + 1).toNat ∧
      ((chanAt (linkAt link0 0) 0).partialRx.isSome = !bitOf (wordAt socBytes 0) 59)) ∧
    (let s := linkIn 18 { up0 18 with peerInst := 6, rateGts := 8 } (w0 0)
     flitsPass s 18 = true ∧ flitOk (zeros 255 ++ [1]) = false ∧ (zeros 255 ++ [1]).length = 256 ∧ running s = true ∧
     fieldOf (wordAt (zeros 255 ++ [1]) 0) 61 3 < (linkAt s 18).chans.length ∧
     ((chanAt (linkAt s 18) 0).partialRx.isSome = !bitOf (wordAt socBytes 0) 59)) := by decide +kernel

/-- A port with its settings, in a state of its own. -/
def withPort (c : PortCfg) (s : State) : State := { s with image := s.image.map (fun im => { im with ports := [c, port0, portEth] }) }
def fbPort : PortCfg := { port0 with fallback := true }
def inTraining (c : PortCfg) (x : LinkSt) : State := withPort c (linkIn 0 { x with state := .training } (w0 0))
def lk (x : LinkSt) : State := linkIn 0 x (w0 0)

theorem wit_PortTimersRepeatAndReplay_2 :
    (let s := lk { up0 0 with nakOut := true, ackDue := 2, txq := [nopFlit] }
     portUp s 0 = true ∧ (linkAt s 0).nakOut = true ∧ 0 < (linkAt s 0).ackDue ∧ (linkAt s 0).txq ≠ []) ∧
    (let s := lk { up0 0 with nakOut := true, ackDue := 2 }
     portUp s 0 = true ∧ (linkAt s 0).resend = [] ∧ (linkAt s 0).txq = [] ∧ 0 < (linkAt s 0).ackDue ∧
     (nextGrant (chanReady s 0) (weights s) 7 (linkAt s 0).turn (linkAt s 0).taken).isNone = true) ∧
    (∀ ts ∈ [([] : List Nat), [0, 0]], let s := lk { up0 0 with replay := [nopFlit], replays := 8, retrains := ts }
     portUp s 0 = true ∧ (linkAt s 0).replay ≠ [] ∧ 8 ≤ (linkAt s 0).replays ∧ worstLane (linkAt s 0) = none ∧
     (inWindow s.time.tick.toNat secondTicks (linkAt s 0).retrains).length = ts.length) ∧
    (linkAt (lk { up0 0 with replay := [nopFlit], replays := 7 }) 0).replays < 8 := by decide +kernel

theorem wit_TrainingEndsInLinkUpOrFailure_2 :
    (let s := inTraining fbPort (LinkSt.init 0)
     portCfg s 0 = some fbPort ∧ (linkAt s 0).state = .training ∧ trained s 0 = false ∧ (linkAt s 0).rewiden = none ∧ fbPort.fallback = true ∧
     fbPort.mode ≠ 3 ∧ 0 < ((linkAt s 0).tryRate.map (fun r => r.toNat)).getD fbPort.rate ∧ (0 : BitVec 2).toNat < fbPort.rate ∧
     ((0 : BitVec 8) &&& widthMask fbPort.width) ≠ widthMask fbPort.width) ∧
    (let s := inTraining port0 (LinkSt.init 0)
     port0.fallback = false ∧ (linkAt s 0).rewiden = none ∧ trained s 0 = false ∧ (0 : BitVec 2).toNat ≠ port0.rate) ∧
    (let s := inTraining port0 { up0 0 with rewiden := some (1, 0x0F), replay := [nopFlit] }
     portCfg s 0 = some port0 ∧ (linkAt s 0).state = .training ∧ trained s 0 = false ∧ (linkAt s 0).rewiden = some (1, 0x0F)) ∧
    (let s := lk { LinkSt.init 0 with state := .retraining }
     (linkAt s 0).state = .retraining ∧ (linkAt s 0).lanesGood = 0) ∧
    (let s := lk { up0 0 with state := .retraining }
     (linkAt s 0).lanesGood ≠ 0 ∧ worstLane (linkAt s 0) = none ∧ (0x0F : BitVec 8) &&& (linkAt s 0).lanesGood ≠ (linkAt s 0).lanesGood) ∧
    (let s := lk { up0 0 with state := .degrading, degrade := some (1, 0x0F), lost := 0x10 }
     (linkAt s 0).state = .degrading ∧ (linkAt s 0).degrade = some (1, 0x0F) ∧ (0x0F : BitVec 8) &&& (linkAt s 0).lost = 0) ∧
    (let s := lk { up0 0 with state := .degrading, degrade := some (1, 0x0F), lost := 4 }
     (0x0F : BitVec 8) &&& (linkAt s 0).lost ≠ 0 ∧ isEth s 0 = false ∧
     (narrower ((1 : BitVec 8).toNat % 4) ((0x0F : BitVec 8) &&& ~~~(linkAt s 0).lost)).isSome = true) ∧
    ((0 : BitVec 6) = 0 ∧ (33 : BitVec 6).toNat > 32) ∧
    (let s := inboxOf (ctrlFrom linkIdMsg) (w0 0)
     s.inbox[0]? = some (ctrlFrom linkIdMsg) ∧ trained s 0 = false) ∧
    (let m := { linkIdMsg with m1 := 0xFFFFFFFF00000000 }
     let s := inboxOf (ctrlFrom m) (training0 0 (up0 0))
     trained s 0 = true ∧ mType m = 1 ∧ fieldOf m.m1 32 32 ≠ fieldOf (planWord s 3) 32 32) := by decide +kernel

theorem wit_TrainingBoundsFailTheLink_2 :
    ((linkAt link0 0).state ≠ .training ∧ (linkAt link0 0).state ≠ .retraining ∧ (linkAt link0 0).state ≠ .degrading) ∧
    (let s := inTraining fbPort (LinkSt.init 0)
     trained s 0 = false ∧ portCfg s 0 = some fbPort ∧ fbPort.fallback = true ∧ fbPort.mode ≠ 3 ∧
     0 < ((linkAt s 0).tryRate.map (fun r => r.toNat)).getD fbPort.rate) ∧
    ((linkAt (training0 18 (LinkSt.init 18)) 18).state = .training ∧ (linkAt (training0 18 (LinkSt.init 18)) 18).rewiden = none ∧
      trained (training0 0 (up0 0)) 0 = true) ∧
    (let s := inTraining port0 { up0 0 with rewiden := some (1, 0x0F) }
     (linkAt s 0).state = .training ∧ (linkAt s 0).rewiden = some (1, 0x0F)) ∧
    (let s := linkIn 2 { up0 2 with flows := [(0, { Flow.init with state := 1 })] } (w0 0)
     isEth s 2 = true ∧ (linkAt s 2).state = .up ∧ (flowAt s 2 0).state = 1) ∧
    (let s := linkIn 0 { up0 0 with state := .down } idle0
     (linkAt s 0).state = .down ∧ isReady s = true ∧ s.power.banked = false ∧ portCfg s 0 = some port0 ∧ port0.mode ≠ 0) ∧
    (let s := linkIn 18 { up0 18 with state := .down } idle0
     (linkAt s 18).state = .down ∧ isReady s = true ∧ s.power.banked = false ∧ modCfg s 0 = some mod0 ∧ mod0.enabled = true) ∧
    (linkUp (w0 0) 0 = false ∧ linkUp (linkIn 0 (up0 0) idle0) 0 = true) ∧
    (linkUp link0 0 = true ∧ link0.step.state = .opened ∧ isBanked link0 = false) ∧
    (let s := lk { up0 0 with state := .retraining }
     (linkAt s 0).state = .retraining ∧ worstLane (linkAt s 0) = none) ∧
    (let s := lk { up0 0 with state := .retraining, laneErr := [(3, 7)] }
     worstLane (linkAt s 0) = some 3 ∧ isEth s 0 = false ∧ (linkAt s 0).degrade = none ∧
     (narrower (linkAt s 0).width.toNat ((linkAt s 0).lanesGood &&& ~~~((linkAt s 0).lost ||| BitVec.ofNat 8 (2 ^ 3)))).isSome = true) := by
  decide +kernel

theorem wit_LanesAreGivenUpAndRegained_2 :
    (laneActive (w0 0) 0 5 = false) ∧ (laneActive (lk { up0 0 with state := .retraining }) 0 5 = true) ∧
    (let s := linkIn 2 (up0 2) (w0 0)
     laneActive s 2 0 = true ∧ isEth s 2 = true) ∧
    (let s := lk { up0 0 with degrade := some (1, 0x0F) }
     laneActive s 0 0 = true ∧ isEth s 0 = false ∧ (linkAt s 0).state ≠ .degrading ∧ (0x0F : BitVec 8) &&& 1 ≠ 0 ∧
     (narrower (1 : BitVec 8).toNat ((linkAt s 0).lanesGood &&& ~~~(1 : BitVec 8))).isSome = true) ∧
    (let s := lk { up0 0 with degrade := some (1, 0x0F) }
     laneActive s 0 7 = true ∧ (0x0F : BitVec 8) &&& 0x80 = 0 ∧ (linkAt s 0).degrade = some (1, 0x0F)) ∧
    (let s := lk { up0 0 with width := 0, lanesGood := 3 }
     laneActive s 0 0 = true ∧ (linkAt s 0).degrade = none ∧
     narrower (linkAt s 0).width.toNat ((linkAt s 0).lanesGood &&& ~~~(1 : BitVec 8)) = none) ∧
    (let s := inboxOf (ctrlFrom (degradeMsg 4)) (lk { up0 0 with degrade := some (0, 3) })
     s.inbox[0]? = some (ctrlFrom (degradeMsg 4)) ∧ portUp s 0 = true ∧ (linkAt s 0).degrade ≠ none ∧ me s < peerOf s 0 0) ∧
    (let s := inboxOf (ctrlFrom (degradeMsg 5)) (lk { up0 0 with degrade := some (1, 0x0F) })
     let m := degradeMsg 5
     (linkAt s 0).degrade = some (m.m0.extractLsb' 48 8, m.m0.extractLsb' 40 8) ∧ portUp s 0 = true) ∧
    ((linkAt link0 0).degrade ≠ some ((degradeMsg 5).m0.extractLsb' 48 8, (degradeMsg 5).m0.extractLsb' 40 8)) ∧
    (portLive link0 = true ∧ warm link0 33 = true ∧ portCfg link0 0 = some port0 ∧ running link0 = true) ∧
    (linkUp (w0 0) 18 = false ∧ linkUp (linkIn 18 (up0 18) idle0) 18 = true ∧ linkUp (linkIn 18 (up0 18) (w0 0)) 18 = true) := by
  decide +kernel

def takeAt (k n q : Nat) : Arrival := { src := .link (.port (Fin.ofNat 18 k)) 0, vc := 4, body := .ctrl { takeMsg n with m0 := (takeMsg n).m0 ||| putField 48 8 q } }
def spareEth : State :=
  let s := linkIn 3 { up0 3 with role := 1 } (linkIn 2 { up0 2 with state := .failed } (w0 0))
  inboxOf (takeAt 3 6 2) { s with image := s.image.map (fun im => { im with ports := [port0, port0, portEth, { portEth with spare := true }] }) }

theorem wit_SparesTakeOver_2 :
    (let s := inboxOf (takeAt 1 6 0) (linkIn 1 { up0 1 with role := 1, state := .retraining } spare0)
     s.inbox[0]? = some (takeAt 1 6 0) ∧ (linkAt s 1).state = .retraining) ∧
    (let s := inboxOf (takeAt 1 6 0) (linkIn 1 { up0 1 with role := 2 } spare0)
     s.inbox[0]? = some (takeAt 1 6 0) ∧ (linkAt s 1).role ≠ 1 ∧ (linkAt s 1).state = .up) ∧
    (spareEth.inbox[0]? = some (takeAt 3 6 2) ∧ isEth spareEth 3 = true ∧ (linkAt spareEth 3).role = 1 ∧ (linkAt spareEth 3).state = .up ∧ 2 ≠ 3) ∧
    (let s := inboxOf (takeAt 1 7 0) (linkIn 1 { up0 1 with taking := some 0, unacked := [{ vc := 0, flow := 0, cord := cord0 }] } spare0)
     s.inbox[0]? = some (takeAt 1 7 0) ∧ (linkAt s 1).taking = some 0) ∧ (linkAt spare0 1).taking ≠ some 0 := by decide +kernel

def fab (f : Fabric → Fabric) (s : State) : State := { s with fabric := f s.fabric }
def eastItem : RingItem := { item0 with dests := [3, 40] }

theorem wit_RingStopsInjectWithCredits_2 :
    (stopRuns rst0 1 = false) ∧ (stopRuns ring0 2 = true ∧ ring0.power.bankDrains = false ∧ segFull ring0 2 = false ∧ slotFor ring0 2 0 = true ∧
      ringGrant (ringReady ring0 2 0) (weights ring0) 7 (smGet (0, 0) ring0.fabric.turns (8 * 2)).1 (smGet (0, 0) ring0.fabric.turns (8 * 2)).2 = none) ∧
    (({ ring0 with power := { ring0.power with bankDrains := true } } : State).power.bankDrains = true) ∧
    (∃ r : Fin 8, let s := fab (fun f => { f with items := [eastItem] }) { w0 0 with power := { (w0 0).power with eastClosed := true, eastStopped := true } }
     stopRuns s 1 = true ∧ s.power.eastClosed = true ∧ ringHead s 1 r.val 0 = some (eastItem, 0) ∧ heldWest s eastItem = true) ∧
    (∃ r : Fin 8, let s := fab (fun f => { f with items := [eastItem] }) (domIn 61 { Dom.init with st := .banked, ret := true })
     let t := { s with power := { s.power with eastClosed := true } }
     stopRuns t 1 = true ∧ t.power.eastStopped = false ∧ domSt t 61 = .banked ∧ implemented t 61 = true ∧ ringHead t 1 r.val 0 = some (eastItem, 0) ∧
       heldWest t eastItem = true) ∧
    (∃ r : Fin 8, ringHead ring0 1 r.val 0 = some (item0, 0) ∧ heldWest ring0 item0 = false ∧ 1 ∉ smGet [] ring0.fabric.reserved r.val) ∧
    (1 ∈ smGet [] (fab (fun f => { f with reserved := [(0, [1])] }) ring0).fabric.reserved 0) := by decide +kernel

theorem wit_StrayHallFramesAreDropped_2 :
    (ethLive (w0 0) 2 = false) ∧
    (let fr := hallFrame 1 0 true
     ({ fr with etherType := 1 } : HallFrame).etherType ≠ portEth.etherType ∧ ({ fr with dstMac := 1 } : HallFrame).dstMac ≠ portEth.srcMac ∧
     flowNamed eth0 2 fr.h4 = some 0 ∧ flowNamed eth0 2 0 = none ∧ fr.pause = false ∧ fr.etherType = portEth.etherType ∧ fr.dstMac = portEth.srcMac ∧
     ({ fr with body := [] } : HallFrame).body.length ≠ max (fieldOf fr.h0 32 16) (minBody fr.tagged) ∧
     fr.body.length = max (fieldOf fr.h0 32 16) (minBody fr.tagged) ∧ (flowAt eth0 2 0).state ≠ 3 ∧
     fieldOf ({ fr with h0 := putField 56 8 2 } : HallFrame).h0 56 8 ≠ 1) ∧
    ((flowAt (linkIn 2 { up0 2 with flows := [(0, { Flow.init with state := 3 })] } (w0 0)) 2 0).state = 3) := by decide +kernel

def ethFlow (x : Flow) (f : LinkSt → LinkSt) : State := linkIn 2 (f { up0 2 with flows := [(0, x)] }) (w0 0)
def mgmtFrame : HallFrame := { hallFrame 3 0 true with h0 := (hallFrame 3 0 true).h0 ||| putField 49 3 4 }

theorem wit_HallFlowsAcknowledgeAndRetransmit_2 :
    ((hallFrame 1 0 true).h2 = 0 ∧ (hallFrame 1 0 true).h3 = 0) ∧
    (fieldOf mgmtFrame.h0 52 4 = 3 ∧ fieldOf mgmtFrame.h0 49 3 = 4 ∧ BitVec.ofNat 32 (fieldOf mgmtFrame.h0 0 32) = (flowAt eth0 2 0).rxAck ∧
      (flowAt eth0 2 0).heldUnits = [] ∧ (flowAt eth0 2 0).units = []) ∧
    (let s := ethFlow { Flow.init with state := 2, rxAck := 5 } id
     (hallAhead (BitVec.ofNat 32 (fieldOf mgmtFrame.h0 0 32)) (flowAt s 2 0).rxAck).isNone = true ∧ ethLive s 2 = true) ∧
    (ethLive (w0 0) 2 = false ∧ (flowAt eth0 2 0).ackOwed = false) ∧
    (let s := ethFlow { Flow.init with state := 2, units := [{ unit0 with resend := [0] }] } id
     ethLive s 2 = true ∧ ∃ u ∈ (flowAt s 2 0).units, u.resend ≠ []) ∧
    (let s := ethFlow { Flow.init with state := 2, units := [{ unit0 with sends := 31 }] } id
     (flowAt s 2 0).units.find? (fun w => w.seq == 1) = some { unit0 with sends := 31 } ∧ unit0.lastTx ≠ 0 ∧ (flowAt s 2 0).state = 2 ∧ isEth s 2 = true) ∧
    ((linkAt eth0 2).state ≠ .training ∧ (linkAt eth0 2).state ≠ .down ∧ ∀ v < 5, headBody eth0 2 v = none) ∧
    (let s := ethFlow { Flow.init with state := 2 } (fun l => { l with
       turn := 4, taken := 1, timingQ := [(0, List.replicate 64 0)], chans := List.replicate 5 { Chan.init with deficit := 500 } })
     ethLive s 2 = true ∧ s.inject.enable = false ∧ headBody s 2 4 = some 64 ∧ (linkAt s 2).taken ≠ 0 ∧
     wireLen (tags s 2) 64 ≤ (chanAt (linkAt s 2) 4).deficit ∧ frameLen (tags s 2) 64 ≤ 16384 ∧ (linkAt s 2).txFrames = []) := by decide +kernel

theorem wit_LeavesReadTheirCords_2 :
    (leafLive rst0 0 = false) ∧
    (leafLive (leafIn open0 (w0 0)) 0 = true ∧ (leafAt (leafIn open0 (w0 0)) 0).fireQ = [] ∧ (leafAt (leafIn open0 (w0 0)) 0).restoreQ = []) ∧
    (let s := leafIn { leafAt (feeding []) 0 with rings := [] } (feeding [nodeOf (segNode 0 0)])
     mayOffer s 0 fire0 = true ∧ srMaskLine (smGet 0 (leafAt s 0).rings (trRing tr0.w0)) = false ∧ eKind (entryOf 0) ≠ 5) ∧
    (let s := { feeding [nodeOf (segNode 0 0)] with image := (w0 5).image }
     entryAt s 0 = some (entryOf 5) ∧ eKind (entryOf 5) = 5 ∧ mayOffer s 0 fire0 = true) ∧
    (let s := leafIn { leafAt (feeding []) 0 with restoreQ := [read0] } (feeding [])
     mayOffer s 0 fire0 = false ∧ (leafAt s 0).restoreQ = read0 :: [] ∧ read0.want ≠ []) ∧
    (let r := { lastBeat0 with void := true }
     (leafAt (readingIn r) 0).reading = some r ∧ r.void = true ∧ r.wait = { addr := 64, half := 3, isMask := false } :: []) ∧
    (lastBeat0.want = [] ∧ granted0.void = false ∧ lastBeat0.restore = none ∧ eKind (entryOf 0) ≤ 3) ∧
    (read0.want ≠ [] ∧ read0.stalled = false ∧ read0.void = false) := by decide +kernel

theorem wit_LeavesWriteWhatLands_2 :
    (leafLive rst0 0 = false) ∧
    (leafLive (leafIn open0 (w0 0)) 0 = true ∧ (leafAt (leafIn open0 (w0 0)) 0).landQ = [] ∧ (leafAt (leafIn open0 (w0 0)) 0).writing = none) ∧
    (inTurn landing0 0 land0 { slot := 0, buf := none, seq := 0, cord := cordOf 0 1 0 } = true) ∧
    (∀ b : Bool, let w := { write0 [beat0 .record] with void := b }
     let s := leafIn { open0 with writing := some w, lands := [land0] } (w0 0)
     leafLive s 0 = true ∧ (leafAt s 0).writing = some w ∧ w.beats = [beat0 .record] ∧ w.void = b ∧ w.cord = some (cordOf 0 1 0) ∧
     (leafAt s 0).lands.find? (fun y => y.slot == 0) = some land0) ∧
    (∀ k ∈ [WrKind.stepRec, .sealRec], let w := { write0 [beat0 k] with cord := none }
     (leafAt (leafIn { open0 with writing := some w } (w0 0)) 0).writing = some w ∧ (beat0 k).kind = k ∧ w.void = false) ∧
    ((write0 []).void = false ∧ ({ write0 [] with stalled := true } : WriteCtx).stalled = true) ∧
    (∀ b : Bool, let s := leafIn { open0 with lands := [{ land0 with met := b }], held := [{ slot := 0, buf := some 3, seq := 0, cord := cordOf 0 1 0 }] } (w0 0)
     leafLive s 0 = true ∧ (leafAt s 0).lands.find? (fun y => y.slot == 0) = some { land0 with met := b } ∧
     ∀ h ∈ (leafAt s 0).held, ∀ b ∈ h.buf.toList, b < 3072) := by decide +kernel

theorem wit_SplicesMoveThePosition_2 :
    (∀ k : Fin 2, let v : Word := 0x4000000000000000 ||| putField 51 10 k.val
     v.extractLsb' 61 3 = 2 ∧ v.extractLsb' 51 10 = BitVec.ofNat 10 k.val) ∧
    (rst0.image = none ∧ portLive rst0 = true) ∧
    (1 ∈ idleSpares (w0 0) ∧ (w0 0).faults.retired.getLsbD 1 = false ∧ (w0 0).kindle.disabledTaken.getLsbD 1 = false) ∧
    (({ w0 0 with faults := { (w0 0).faults with retired := 1 } } : State).faults.retired.getLsbD 0 = true) ∧
    (noSpares.faults.dieFailed = false ∧ noSpares.image.isSome = true ∧ 0 ∉ idleSpares noSpares) := by decide +kernel

/-- A step about to open with a leaf set, and with a spoiled cord held for it. -/
def setLf : LeafSet := { triggers := [(0, bitAt 40 true)], rings := [0], landings := [(bitAt 51 true, 7)] }
def openingLeaf : State := { toOpen with image := some { im0 0 with tileMap := [0], leafSets := [setLf] } }

theorem wit_StepsOpenAndComplete_2 : (mayOpen openingLeaf false = true ∧ positionsOf openingLeaf false = [(0, 0)] ∧
      ((leafSetOf openingLeaf 0).map (loadTriggers openingLeaf 0)).isSome = true ∧ activeEntries openingLeaf = [entryOf 0]) ∧
    (let s := { openingLeaf with kiln := { openingLeaf.kiln with early := [{ buf := 3, item := upArr, bad := true }] } }
     mayOpen s false = true ∧ s.kiln.early ≠ []) ∧
    (locallyComplete (w0 0) = true ∧ (w0 0).faults.dieFailed = false) := by decide +kernel

/-- A cord of a PASS or MIRROR entry that comes to this die, and the entry's leaf. -/
def directIn (k vc : Nat) (landed : List (Nat × Nat)) (holds : List PassHold) : State :=
  let s := w0 k
  let t := leafIn { open0 with lands := [land0] } { s with image := some { im0 k with entries := [{ entryOf k with w2 := putField 48 16 1 }] } }
  inboxOf { src := .link (.module 0) 0, vc := vc, body := .cord (cordOf k 1 0) } { t with kiln := { t.kiln with landed := landed, passHolds := holds } }
def drainArr : Arrival := { src := .link (.module 0) 0, vc := 0, body := .ctrl (drainMsg 0 0) }
def nextCord : Cord := { cordOf 0 1 0 with w1 := mkW1 1 0 }

theorem wit_CordsReachTheirNode_2 :
    (drainAhead { at1 with inbox := [drainArr, { upArr with seq := 1 }] } { upArr with seq := 1 } = true ∧ drainAhead at1 upArr = false) ∧
    (let a := { upArr with body := .cord nextCord }
     let s := inboxOf a at1
     s.inbox[0]? = some a ∧ isUpward a nextCord = true ∧ drainAhead s a = false ∧ isReady s = true ∧ stepMatch s a nextCord = 1 ∧
     usedOf s .arrival < policy s (fun p => p.arrivalReserve) 64 ∧ (pickBuf s (cIdx nextCord)).isSome = true ∧
     policy { s with image := some { im0 0 with policies := { pol0 with arrivalReserve := 0 } } } (fun p => p.arrivalReserve) 64 = 0) ∧
    (eOpActive preheatEntry 0 = false ∧ cordFits at1 (entryOf 0) (cordOf 2 1 0) = false) ∧
    (findNode { at1 with kiln := { at1.kiln with nodes := [] } } 0 (nodeOfArrival at1 upArr (cordOf 0 1 0)).1 = none) ∧
    (({ nodeOf (nodeId 1 0) with closed := [0] } : NodeInst).closed.contains 0 = true) ∧
    (let x := { nodeOf (nodeId 1 0) with admitted := false }
     ¬(x.admitted = true ∨ x.claim = 0)) ∧
    (let x := nodeOf (nodeId 0 0)
     let a := { upArr with src := .seg 0, body := .cord (cordOf 0 0 0) }
     let s := inboxOf a (nodesIn [x, nodeOf (nodeId 1 0)] (w0 0))
     isUpward a (cordOf 0 0 0) = true ∧ findNode s 0 (nodeOfArrival s a (cordOf 0 0 0)).1 = some x ∧
     (cordChildren s (entryOf 0) g0 (nodeOfArrival s a (cordOf 0 0 0)).1 0).length = 1 ∧
     (nodeOfArrival s a (cordOf 0 0 0)).2 ∈ cordChildren s (entryOf 0) g0 (nodeOfArrival s a (cordOf 0 0 0)).1 0 ∧ inWin x 0 = true ∧
     live s (nodeDom s (nodeOfArrival s a (cordOf 0 0 0)).1 0) = true ∧ handles s x 0 = true) := by decide +kernel

theorem wit_CordsReachTheirNode_3 :
    (∀ p ∈ [(7, 2), (8, 3)], let s := directIn p.1 p.2 [] []
     let c := cordOf p.1 1 0
     let e : PlanEntry := { entryOf p.1 with w2 := putField 48 16 1 }
     let a : Arrival := { src := .link (.module 0) 0, vc := p.2, body := .cord c }
     s.inbox[0]? = some a ∧ isUpward a c = true ∧ drainAhead s a = false ∧ isReady s = true ∧ stepMatch s a c = 0 ∧
     entryAt s (cPlan c) = some e ∧ eOpActive e (cStep c) = true ∧ cEpoch c = epochOf s (eGroup e) ∧ 7 ≤ cKind c ∧ cordFits s e c = true ∧
     (if eKind e = 7 then (entryGroup s e).bind (fun g => dieOfMember g (argNow s e)) else (myDie s).map (fun d => d ^^^ eArg e)) = some (cSource c) ∧
     landsNow s e (cTile c) = true ∧ (physOf s (cTile c)).bind (fun t => (landFor (leafAt s t) (eIdx e)).map (fun x => (t, x.slot))) = some (0, 0) ∧
     landKey c ∉ s.kiln.landed) ∧
    (landKey (cordOf 8 1 0) ∈ (directIn 8 3 [landKey (cordOf 8 1 0)] []).kiln.landed) ∧
    (∃ p ∈ (directIn 7 2 [] [{ plan := 0, claim := 1, admitted := false, closed := false }]).kiln.passHolds, p.plan = 0 ∧ p.admitted = false) ∧
    (landsNow (w0 8) (entryOf 8) 5 = false ∨ some 9 ≠ some (cSource (cordOf 8 1 0))) := by decide +kernel

theorem wit_NodesCombineTheirOperands_2 :
    (running rst0 = false ∧ (openOf 0).forwarded = false ∧ (openOf 0).sent = false ∧ (openOf 0).partialOut = none) ∧
    ((openOf 1).attempts < 2 ∧ 2 ≤ (openOf 2).attempts ∧ segPair.faults.dieFailed = false ∧ running segPair = true) ∧
    ((w0 0).kiln.bankWorking.getLsbD 7 = true ∧ live (w0 0) (25 + 7) = true ∧ scrubFrom (w0 0) 7 0 = some 0 ∧ scrubFrom (w0 0) 7 24575 = some 24575 ∧
      scrubFrom (w0 0) 7 24576 = none) ∧
    (({ w0 0 with kiln := { (w0 0).kiln with bankWorking := 0 } } : State).kiln.bankWorking.getLsbD 0 = false) ∧
    (let s := combining0 0
     s.kiln.bufRetired.contains 0 = false ∧ s.kiln.bankWorking.getLsbD 0 = true ∧ running s = true) ∧
    (holdsStep { combining0 0 with kiln := { (combining0 0).kiln with used := [(0, .node 0)] } } 0 = true) := by decide +kernel

theorem wit_RootsFinishAndDiesLand_2 :
    (entryAt { finish0 with image := some { im0 0 with entries := [] } } (cPlan (cordOf 0 0 0)) = none) ∧
    (live { finish0 with power := { finish0.power with doms := smSet Dom.init finish0.power.doms 58 Dom.init } } 58 = false) ∧
    (let m := inboxOf { ackArr with body := .cord { ackCord0 with w1 := mkW1 1 0 } } mirror0
     stepMatch m ackArr { ackCord0 with w1 := mkW1 1 0 } = 1 ∧ isReady m = true ∧ isMirrorAck ackCord0 = true) ∧
    (stepMatch mirror0 ackArr ackCord0 = 0 ∧ drainAhead mirror0 ackArr = false ∧ eOpActive (entryOf 8) 0 = true) ∧
    (∀ x ∈ ({ mirror0 with step := { mirror0.step with mirrorOut := [(3, 0, 0)] } } : State).step.mirrorOut, ¬(x.1 = 0 ∧ x.2.1 = 0)) ∧
    (let c := sealCrc (cordOf 5 0 0) 0
     let a : Arrival := { downArr c with src := .seg 0 }
     isDescending a c = true ∧ live (desc0 c) 1 = true) ∧
    (crcOk goodCord = true ∧ findNode { desc0 goodCord with kiln := { (desc0 goodCord).kiln with nodes := [] } } 0 (nodeId 0 0) = none) ∧
    (cordFits (desc0 goodCord) (entryOf 0) (cordOf 2 0 0) = false) ∧
    (landKey goodCord ∈ ({ desc0 goodCord with kiln := { (desc0 goodCord).kiln with landed := [landKey goodCord] } } : State).kiln.landed) ∧
    ((cPlan (cordOf 10 1 0), cIdx (cordOf 10 1 0), cTile (cordOf 10 1 0)) ∉ (inboxOf restArr (w0 0)).faults.restoreDue) := by decide +kernel

def drained (st att : Nat) (f : Step → Step) : State :=
  let s := inboxOf (ctrlFrom (drainMsg st att)) link0
  { s with step := f s.step }

theorem wit_ShortStepsAreAdmittedAndArmed_2 :
    (channelOf link0 { ctrlFrom (drainMsg 0 0) with vc := fieldOf (drainMsg 0 0).m0 53 3 } = some (0, 0)) ∧
    (let s := drained 0 0 id
     s.inbox[0]? = some (ctrlFrom (drainMsg 0 0)) ∧ fieldOf (drainMsg 0 0).m1 0 16 = s.step.attempt.toNat ∧
     s.step.drained.contains (0, 0) = false ∧ running s = true) ∧
    (let s := drained 0 0 (fun x => { x with attempt := 2, draining := [(0, 0)] })
     ¬(fieldOf (drainMsg 0 0).m1 0 16 = s.step.attempt.toNat) ∧ s.step.draining.contains (0, 0) = true) ∧
    (let s := drained 0 0 (fun x => { x with attempt := 2 })
     ¬(fieldOf (drainMsg 0 0).m1 0 16 = s.step.attempt.toNat) ∧ s.step.draining.contains (0, 0) = false) ∧
    (let s := inboxOf (mgmtOf (noticeMsg 3 0)) { waiting1 with step := { waiting1.step with state := .armed } }
     s.inbox[0]? = some (mgmtOf (noticeMsg 3 0)) ∧ running s = false ∧ fieldOf (noticeMsg 3 0).m2 16 48 = stepNo s ∧
     fieldOf (noticeMsg 3 0).m2 0 16 = s.step.attempt.toNat) ∧
    (fieldOf (noticeMsg 4 0).m2 0 16 < ({ waiting1.step with attempt := 1 } : Step).attempt.toNat) ∧
    (entryAt { waiting1 with image := some { im0 0 with entries := [] } } 0 = none) ∧
    (clockRuns { waiting1 with power := { waiting1.power with doms := [] } } false = false) := by decide +kernel

theorem wit_LaunchCheckArmsOrRefuses_2 :
    (let s := sealIn 2 1 0 (zeros 128) rst0
     s.inbox[0]? = some (sealArr 2 1 0 (zeros 128)) ∧ cKind (sealOf 2 1 (zeros 128)) = 9 ∧ isReady s = false) ∧
    (let s := sealIn 2 0 1 (zeros 128) { idle0 with kiln := { idle0.kiln with groups := [] } }
     isReady s = true ∧ groupNow s (sealGroup s) = none) ∧
    (let s := sealIn 2 1 0 (zeros 128) (colIn 2 idle0)
     let col := sealCol s (nodeId 1 0) 2
     sealComputes s g0 1 0 2 = true ∧ (∀ r ∈ col.rows, r.1 ≠ 1) ∧ ∀ j ∈ sealKeys s g0 1 0, ∃ r ∈ col.rows ++ [(1, sealIdentity)], r.1 = j) ∧
    (pickBuf idle0 2).isSome = true ∧
    (let s := sealIn 2 0 1 (zeros 128) idle0
     s.time.launchPending = false ∧ (sealArr 2 0 1 (zeros 128)).vc = 1) := by decide +kernel

theorem wit_SealDecidesTheAttempt_2 :
    (∀ p ∈ [(0, 0), (1, 0), (0, 1)], (sealIn p.1 0 p.2 (zeros 128) rst0).inbox[0]? = some (sealArr p.1 0 p.2 (zeros 128)) ∧
      cKind (sealOf p.1 0 (zeros 128)) = 9 ∧ cIdx (sealOf p.1 0 (zeros 128)) = p.1 ∧ isReady rst0 = false) ∧
    (let s := sealIn 0 1 0 (zeros 128) { w0 0 with tables := { (w0 0).tables with epochs := [(0, 3)] } }
     sealMatch s (sealOf 0 1 (zeros 128)) = 3) ∧
    (let s := sealIn 0 1 0 (zeros 128) { w0 0 with step := { (w0 0).step with attempt := 2 } }
     sealMatch s (sealOf 0 1 (zeros 128)) = 2) ∧
    (let row := zeros 68 ++ [5] ++ zeros 59
     sealMatch (sealIn 0 1 0 row (w0 0)) (sealOf 0 1 row) = 1) ∧
    (let s := sealIn 0 1 0 (zeros 128) (w0 0)
     (sealCol s (nodeId 1 0) 0).rows = [] ∧ sealComputes s g0 1 0 0 = true ∧ 1 ∈ sealKeys s g0 1 0 ∧ (sealCol s (nodeId 1 0) 0).sent = false) ∧
    (let s := sealIn 0 7 0 (zeros 128) (w0 0)
     sealKeyOf s g0 (sealArr 0 7 0 (zeros 128)) (sealOf 0 7 (zeros 128)) [] ∉ sealKeys s g0 1 0) ∧
    (let s := sealIn 1 1 0 (zeros 128) { w0 0 with step := { (w0 0).step with decided := some (List.replicate 32 1, false) } }
     s.step.decided = some (List.replicate 32 1, false) ∧ s.step.broadcast = false ∧ sealComputes s g0 1 0 1 = true ∧ 1 ∈ sealKeys s g0 1 0) ∧
    (({ w0 0 with step := { (w0 0).step with broadcast := true } } : State).step.broadcast = true) ∧
    (let s := { sealIn 0 0 1 (outcomeBytes 2) idle0 with faults := { (w0 0).faults with role := .restoring } }
     s.faults.role = .restoring ∧ awaitsSeal s = true ∧ cStep (sealOf 0 0 (outcomeBytes 2)) = stepNo s) ∧
    ((lane (rowOfBytes (leBytes 128 (2 ^ 27))) 0).getLsbD 27 = true) := by decide +kernel

def next1 (t k : Nat) : Msg := chg t 0xFFFFFF k 1 1 6 7
def grouped (f : GroupDef → GroupDef) (s : State) : State := { s with kiln := { s.kiln with groups := s.kiln.groups.map f } }

theorem wit_ChangesAreAppliedInSequence_2 :
    (let s := { chgIn (next1 2 4) (w0 0) with faults := { (w0 0).faults with heldBack := [chg 2 0xFFFFFF 4 2 1 6 7] } }
     s.inbox[0]? = some (mgmtOf (next1 2 4)) ∧ pcSeq (next1 2 4) = s.faults.changeSeq.toNat + 1 ∧ pcSeq (next1 2 4) ≠ 0 ∧
     (∀ x ∈ s.faults.heldBack, pcSeq x ≠ pcSeq (next1 2 4)) ∧ ∃ x ∈ s.faults.heldBack, pcSeq x = pcSeq (next1 2 4) + 1) ∧
    (rootInst (w0 0) g0.num = 5 ∧ pcOld (next1 2 2) = 6) ∧
    (pcNew (chg 2 0xFFFFFF 7 1 1 6 5) = me (w0 0) ∧ pcKind (chg 2 0xFFFFFF 7 1 1 6 5) = 7) ∧
    (∀ c ∈ [0, 1, 2], let m := { next1 5 2 with m3 := (next1 5 2).m3 ||| putField 36 2 c }
     mType m = 5 ∧ pcKind m = 2 ∧ fbClass m = c ∧ groupNow (w0 0) (pcGroup m) = some g0) ∧
    (let m := { chg 5 0xFFFFFF 2 1 0 5 7 with m3 := (chg 5 0xFFFFFF 2 1 0 5 7).m3 ||| putField 36 2 1 }
     fbClass m = 1 ∧ (w0 0).faults.myDie = some (pcDie m) ∧ (w0 0).faults.dieFailed = false) := by decide +kernel

theorem wit_CoordinatorRunsHoldsAndStandIns_2 :
    (let s := { pooled with faults := { pooled.faults with dieFailed := true } }
     s.faults.dieFailed = true ∧ me s = 5) ∧
    (∀ p ∈ [(2, 3), (2, 5), (2, 6), (2, 9), (2, 0xB), (5, 1), (2, 1)], let m := chg p.1 6 p.2 0 1 6 8
     let s := chgIn m { w0 0 with kindle := { (w0 0).kindle with instanceId := 6 } }
     s.inbox[0]? = some (mgmtOf m) ∧ mDest m = me s ∧ isCoordinator s = false ∧ s.faults.dieFailed = false ∧ pcSeq m = 0) ∧
    (let m := chg 2 5 1 0 1 6 8
     let s := chgIn m { w0 0 with kiln := { (w0 0).kiln with places := [{ group := 0, level := 1, coord := 0, entries := [5, 6] }] } }
     isCoordinator s = true ∧ pcKind m = 1 ∧ pcSeq m = 0 ∧ groupNow s (pcGroup m) = some g0 ∧ pcGroup m = g0.num ∧
     listed (w0 0) (pcGroup m) (pcLevel m) (pcNode m) (pcOld m) = false ∧ s.faults.lastSeq = s.faults.changeSeq ∧ s.faults.heldBack = []) ∧
    (let m := chg 2 5 2 0 1 5 8
     pcKind m = 2 ∧ pcGroup m = sealGroup (w0 0) ∧ rootInst (w0 0) g0.num = pcOld m ∧ pcNew m ≠ 0xFFFFFF ∧
     pcNew (chg 2 5 2 0 1 5 0xFFFFFF) = 0xFFFFFF ∧ nextStandby (w0 0) g0 = none ∧ g0.exhaustHalt = true ∧
     rootInst (w0 0) g0.num ≠ pcOld (chg 2 5 2 0 1 6 8)) ∧
    (let s := grouped (fun g => { g with standby := [8] }) (w0 0)
     nextStandby s { g0 with standby := [8] } = some 8 ∧ groupNow s 0 = some { g0 with standby := [8] }) ∧
    (let m := { chg 2 5 3 0 0 9 8 with m1 := putField 56 8 3 ||| putField 46 1 1 }
     pcNoIndex m = true ∧ ∀ p ∈ pooled.kiln.places, pcOld m ∉ p.entries) ∧
    (let s := { pooled with faults := { pooled.faults with pool := [] } }
     nextPool s 1 0 = none ∧ ∃ g ∈ groupsHolding s 1, g.exhaustHalt = true) ∧
    (1 ∈ ({ offering.faults with restoring := [1] } : Faults).restoring ∧ ∀ o ∈ offering.faults.offers, o.die ≠ 3) ∧
    ((w0 0).faults.awaitAck = false ∧ (w0 0).faults.offers = []) := by decide +kernel

theorem wit_CoordinatorRunsHoldsAndStandIns_3 :
    (let s := { offering with time := { offering.time with tick := 100000 } }
     isCoordinator s = true ∧ s.faults.dieFailed = false ∧ openOffer s = some offer0 ∧
     s.faults.offers.find? (fun x => x.die == offer0.die) = some offer0 ∧ nextPool s offer0.die offer0.next = some (1, 9)) ∧
    (openOffer offering = none) ∧
    (let h : HoldRec := { die := 1, inst := 6, kind := .splice, since := 0 }
     let s := { pooled with time := { pooled.time with tick := 10000000000 }, faults := { pooled.faults with holds := [h] } }
     isCoordinator s = true ∧ s.faults.dieFailed = false ∧
     s.faults.holds.find? (fun x => x.die == 1 && decide (x.since + s.faults.recoveryLimit.toNat * 100000000 ≤ s.time.tick.toNat)) = some h ∧
     pooled.time.tick.toNat < h.since + pooled.faults.recoveryLimit.toNat * 100000000) := by decide +kernel

theorem wit_TimersWarnAndReport_2 :
    (let s := { skewed false with faults := { (skewed false).faults with paused := true } }
     s.faults.paused = true) ∧
    (findNode (w0 0) 0 (nodeId 1 0) = none ∧ findOpen (nodeOf (nodeId 1 0)) 0 = none) ∧
    (stallTimers (skewed false) 0 0 0 = [] ∧ toWarn (skewed false) 0 0 0 = []) ∧
    ({ die := 1, tile := 0, inst := 6, level := 1 } ∈ (smoulders (skewed false) 0 0 4 (fun x => x.boundMs * 100000)).map (fun t => t.item) ∧
      { die := 1, tile := 0, inst := 6, level := 1 } ∉ (smoulders (w0 0) 0 0 4 (fun x => x.boundMs * 100000)).map (fun t => t.item) ∧
      entryAt (skewed false) 0 = some (entryOf 0) ∧ entryGroup (skewed false) (entryOf 0) = some g0) ∧
    ((collecting0 100000).faults.heldBack = [] ∧ (collecting0 100000).faults.lastSeq = (collecting0 100000).faults.changeSeq) := by decide +kernel

theorem wit_FailedDiesFallSilent_2 :
    (portLive rst0 = true ∧ isReady rst0 = false ∧ (0x2000000000000000 : Word).extractLsb' 61 3 = 1) ∧
    (let s := { link0 with faults := { link0.faults with dieFailed := true } }
     s.faults.dieFailed = true ∧ s.faults.silenced = false ∧ s.links ≠ []) ∧
    (portLive idle0 = true ∧ spliceValid (bitAt 63 true ||| putField 52 10 0 ||| putField 42 10 1) idle0 = true) ∧
    (∀ t ∈ [2, 7], let m := { msgZero with m0 := putField 56 8 t ||| putField 8 24 6 }
     (inboxOf (mgmtOf m) link0).inbox[0]? = some (mgmtOf m) ∧ mDest m ≠ me link0 ∧ mDest m ≠ 0xFFFFFF ∧ mType m = t) := by decide +kernel

/-! ### Witnesses: the clauses that a second and a third look added -/

theorem wit_HostSetsTheStepAndItsGroupsInIdle_2 : portLive (domIn 63 Dom.init) = true ∧ warm (domIn 63 Dom.init) 63 = false ∧
    warm idle0 63 = true ∧ warm (w0 0) 63 = true := by decide +kernel

theorem wit_ImageIsReadAndAuthenticated_3 : ¬((stage 3).kindle.state = .kindling ∧ (stage 3).kindle.stage = 2 ∧ (stage 3).kindle.discovered = false) ∧
    ¬((stage 3).kindle.state = .kindling ∧ (stage 3).kindle.stage = 2 ∧ (stage 3).kindle.discovered = true) ∧
    ¬((stage 2).kindle.state = .kindling ∧ (stage 2).kindle.stage = 3 ∧ ([] : List Byte).length = imgBytes (stage 2).kindle.header) ∧
    ¬((stage 2).kindle.state = .kindling ∧ (stage 2).kindle.stage = 4) := by decide +kernel

theorem wit_ClocksLockAndThrottle_3 :
    (let s := coded none (some 4) (linkIn 10 (up0 10) unlocked61)
     (dom s 61).gnt = true ∧ domSt s 61 = .waking ∧ s.power.codeE = some 4 ∧ eastLinkUp s = true) ∧
    (let s := coded none (some 4) unlocked61
     eastLinkUp s = false ∧ eastBound s = false) := by decide +kernel

theorem wit_AccessesWithoutARegisterChangeNothing_2 : regionShifted rst0 0 = false ∧ regionShifted hearth0 ((regDomain 0x200000).getD 0) = false := by
  decide +kernel

/-- Test mode with the ember wrapper on its cells. -/
def shifted0 : State := { rst0 with pins := { rst0.pins with testMode := true, wrappers := [(.ember, .intest)] } }

theorem wit_OneRegisterHasOneMeaning_3 : shifted0.pins.testMode = true ∧ regionShifted shifted0 ((regDomain 0x2018).getD 0) = true ∧
    (portLive (w0 0) = true ∧ regionShifted (w0 0) 0 = false ∧ regionShifted (w0 0) (1 + (575 : Fin 576).val / 36) = false) := by decide +kernel

theorem wit_HostReadsAndSetsTheTick_3 : (masterAt (fun x => { x with confirmedOnce := true })).time.confirmedOnce = true ∧
    master0.log.disabled = false ∧ master0.log.queue.length < 63 := by decide +kernel

def drainBytes : List Byte := flitBytes false { ctrlFlit [drainMsg 0 0, windowMsg 0] with seqd := true, seq := 0 } 4095 false

set_option maxRecDepth 20000 in
theorem wit_FlitsAreTakenInSequence_3 : flitsPass link0 0 = true ∧ drainBytes.length = 256 ∧ flitOk drainBytes = true ∧ bitOf (wordAt drainBytes 0) 57 = true ∧
    bitOf (wordAt drainBytes 0) 60 = true ∧ fieldOf (wordAt drainBytes 0) 45 12 = ((linkAt link0 0).ackSeq + 1).toNat ∧ (linkAt link0 0).replay = [] ∧
    (∀ m ∈ slotsOf (drainBytes.drop 8), mType m ≤ 7) ∧ ∃ m ∈ slotsOf (drainBytes.drop 8), mType m = 2 := by decide +kernel

theorem wit_TrainingEndsInLinkUpOrFailure_3 :
    (let x := { up0 0 with state := .retraining }
     let lost := x.lost ||| (x.lanesGood &&& ~~~(0x0F : BitVec 8))
     x.lanesGood ≠ 0 ∧ (0x0F : BitVec 8) &&& x.lanesGood ≠ x.lanesGood ∧ isEth (lk x) 0 = false ∧ x.degrade = none ∧
       (narrower x.width.toNat (x.lanesGood &&& ~~~lost)).isSome = true) ∧
    (let x := { up0 0 with state := .retraining }
     x.degrade = none ∧ narrower x.width.toNat (x.lanesGood &&& ~~~(x.lost ||| (x.lanesGood &&& ~~~(0 : BitVec 8)))) = none) ∧
    isEth (linkIn 2 { up0 2 with state := .retraining } (w0 0)) 2 = true := by decide +kernel

theorem wit_LanesAreGivenUpAndRegained_3 :
    (let s := lk { up0 0 with state := .retraining }
     laneActive s 0 5 = true ∧ (linkAt s 0).state = .retraining ∧ (linkAt s 0).degrade = none ∧
       (narrower (linkAt s 0).width.toNat ((linkAt s 0).lanesGood &&& ~~~(0x20 : BitVec 8))).isSome = true) ∧
    (let s := withPort { port0 with width := 2 } (linkIn 0 { up0 0 with width := 1, lanesGood := 0x0F } { idle0 with step := { idle0.step with neverLaunched := false } })
     portUp s 0 = true ∧ (linkAt s 0).width.toNat < 2 ∧ atBoundary s = true ∧ portLive s = true ∧ warm s 33 = true ∧
       portCfg s 0 = some { port0 with width := 2 }) ∧
    (atBoundary (w0 0) = false ∧ portUp (w0 0) 0 = false) := by decide +kernel

theorem wit_SparesTakeOver_3 : spare0.fabric.parked = [] ∧ spareEth.fabric.parked = [] ∧ (linkAt spareEth 2).state = .failed := by decide +kernel

theorem wit_RingStopsInjectWithCredits_3 :
    (∀ r : Fin 8, ∀ v < 5, ∀ q ∈ (ringHead ring0 1 r.val v).toList, heldWest ring0 q.1 = false) ∧
    (let s := { ring0 with power := { ring0.power with eastClosed := true } }
     stopRuns s 1 = true ∧ s.power.bankDrains = false ∧ segFull s 1 = false ∧ ∃ r : Fin 8, slotFor s 1 r.val = true ∧
       ringHead s 1 r.val 0 = some (item0, 0) ∧ heldWest s item0 = false ∧
       ringGrant (ringReady s 1 r.val) (weights s) 7 (smGet (0, 0) s.fabric.turns (8 * 1 + r.val)).1
         (smGet (0, 0) s.fabric.turns (8 * 1 + r.val)).2 = some (0, 1)) := by decide +kernel

/-- The held first fragment of a hall unit that comes in order. -/
def heldFirst : HallHeld :=
  let fr := hallFrame 0 0 true
  { seq := 1, vc := 0, type := 0, frag0 := some (fr.body.take (fieldOf fr.h0 32 16)), frag1 := none, whole := none, void := false, buf := noBuf }

theorem wit_HallFlowsAcknowledgeAndRetransmit_3 :
    ((destUse eth0 2 heldFirst).isSome = true ∧ (destUse eth0 2 heldFirst).join.isSome = true ∧
      (pickBuf eth0 (cIdx (cordOfBytes (heldFirst.frag0.getD [])))).isSome = true) ∧
    (let im : Image := { im0 0 with policies := { pol0 with arrivalReserve := 0 } }
     let s := { eth0 with image := some im, step := { eth0.step with number := 7 } }
     destUse s 2 heldFirst = none ∧ ethLive s 2 = true) := by decide +kernel

/-- The first upward cord, in a buffer, with a mark. -/
def buffered (bad : Bool) (s : State) : State := { s with inbox := [{ upArr with buf := some 5, bad := bad }] }

theorem wit_CordsReachTheirNode_4 :
    (∀ s ∈ [buffered true at1], ∃ a, s.inbox[0]? = some a ∧ a.bad = true ∧ a.buf = some 5 ∧ isUpward a (cordOf 0 1 0) = true ∧
      drainAhead s a = false ∧ stepMatch s a (cordOf 0 1 0) = 0 ∧ entryAt s 0 = some (entryOf 0) ∧ eOpActive (entryOf 0) (cStep (cordOf 0 1 0)) = true ∧
      cEpoch (cordOf 0 1 0) = epochOf s (eGroup (entryOf 0)) ∧
      (arrive a (cordOf 0 1 0) (entryOf 0) { s with inbox := s.inbox.eraseIdx 0 }).isSome = true) ∧
    (let s := nodesIn [{ nodeOf (nodeId 1 0) with admitted := false }] (buffered true at1)
     arrive { upArr with buf := some 5, bad := true } (cordOf 0 1 0) (entryOf 0) { s with inbox := s.inbox.eraseIdx 0 } = none) ∧
    (let p : PassHold := { plan := 0, claim := 0, admitted := true, closed := false }
     let s := directIn 7 2 [] [p]
     p ∈ s.kiln.passHolds ∧ p.admitted = true ∧ p.claim ≤ usedOf s (.permit 0)) := by decide +kernel

theorem wit_NodesCombineTheirOperands_3 : (w0 0).pins.testMode = false ∧ residueForced (w0 0) 0 = false ∧
    (let s := domIn 25 { Dom.init with st := .banked, ret := true }
     s.kiln.bankWorking.getLsbD 0 = true ∧ live s 25 = false ∧ clockRuns s (eastDom 25) = true) ∧
    (let s := { domIn 25 { Dom.init with st := .banked, ret := true } with power := { (w0 0).power with doms := [] } }
     s.kiln.bankWorking.getLsbD 0 = true ∧ live s 25 = false ∧ clockRuns s (eastDom 25) = false) := by decide +kernel

theorem wit_RootsFinishAndDiesLand_3 :
    (let x : NodeInst := { nodeOf (nodeId 0 0) with admitted := false }
     let s := inboxOf (downArr goodCord) (nodesIn [x] (w0 0))
     isDescending (downArr goodCord) goodCord = true ∧ findNode s 0 (nodeBelow s (downArr goodCord) goodCord) = some x ∧
       ¬((x.admitted = true ∨ x.claim = 0) ∧ live s (nodeDom s (nodeBelow s (downArr goodCord) goodCord) 0) = true)) ∧
    (let a : Arrival := { downArr goodCord with src := .link (.module 0) 0, seq := 1 }
     let m : Msg := { drainMsg 0 0 with m0 := (drainMsg 0 0).m0 ||| putField 53 3 1 }
     let s := { up18 (w0 0) with inbox := [{ src := .link (.module 0) 0, vc := 1, body := .ctrl m }, a] }
     isDescending a goodCord = true ∧ drainAhead s a = true) := by decide +kernel

theorem wit_ShortStepsAreAdmittedAndArmed_3 : channelOf (w0 0) { src := .self 0, vc := 4, body := .ctrl (drainMsg 0 0) } = none := by decide +kernel

/-- A row in a buffer of the control reserve, whose reserve holds `n` others. -/
def reserveOf (n : Nat) (s : State) : State := { s with kiln := { s.kiln with used := (List.range n).map (fun b => (b, BufUse.control)) } }

theorem wit_SealDecidesTheAttempt_3 :
    (let row := zeros 68 ++ [5] ++ zeros 59
     let s := sealIn 0 1 0 row (w0 0)
     s.inbox[0]? = some (sealArr 0 1 0 row) ∧ sealMatch s (sealOf 0 1 row) = 1 ∧ usedBut s .control noBuf < 128 ∧ (pickBuf s 0).isSome = true ∧
       128 ≤ usedBut (reserveOf 128 s) .control noBuf) ∧
    (let a : Arrival := { src := .self 2, vc := 0, body := .cord (sealOf 0 0 (zeros 128)) }
     let s := inboxOf a (w0 0)
     s.inbox[0]? = some a ∧ a.src = .self (g0.topLevel + 1) ∧ sealMatch s (sealOf 0 0 (zeros 128)) = 0 ∧ s.step.decided = none ∧
       s.step.broadcast = false) := by decide +kernel

theorem wit_CoordinatorRunsHoldsAndStandIns_4 :
    (let m := chg 2 6 9 0 1 6 8
     let s := chgIn m { w0 0 with kindle := { (w0 0).kindle with instanceId := 6 } }
     isCoordinator s = false ∧ coordLost m s = false) ∧
    (let m := chg 2 6 9 0 1 6 8
     let s := grouped (fun g => { g with standby := [8] }) (chgIn m { w0 0 with kindle := { (w0 0).kindle with instanceId := 6 } })
     let t := { s with faults := { s.faults with gone := [5] } }
     isCoordinator t = false ∧ coordLost m t = true ∧ successor t ≠ me t) ∧
    (let m := chg 2 5 2 0 1 5 8
     let s := chgIn m (w0 0)
     pcNew m ≠ 0xFFFFFF ∧ knownWorking s (pcNew m) = true ∧
       knownWorking { s with faults := { s.faults with gone := [8] } } (pcNew m) = false) ∧
    (let m := { chg 2 5 9 0 1 6 8 with m0 := toMe 2 5 ||| putField 32 24 6 }
     mSrc m ≠ 0xFFFFFF ∧ isCoordinator (w0 0) = true) ∧
    (let m := { chg 2 5 3 0 0 9 8 with m1 := putField 56 8 3 ||| putField 46 1 1 }
     pcNoIndex m = true ∧ dieOfInst (w0 0) (pcOld m) = none) ∧
    (let m := chg 2 5 5 0 1 6 8
     pcNew m ∈ ({ offering.faults with gone := [8] } : Faults).gone ∧ pcNew m ∉ offering.faults.gone) := by decide +kernel

theorem wit_TimersWarnAndReport_3 :
    ((toWarn (skewed false) 0 0 4).length = 1 ∧
     (let x := (toWarn (skewed false) 0 0 4).head?.map (fun t => t.key)
      toWarn { (skewed false) with faults := { (skewed false).faults with warned := [(0, 0, 4, x.getD 0)] } } 0 0 4 = [])) := by decide +kernel
/-! ### The spec's worked examples (expected values: chapters 0, 2, 3, 4, 6 and 13 of spec/) -/

def opOf (fn fmt : Nat) : OpSpec := { lanes := .none, fn := fn, fmt := fmt, keyed := false, ovfNan := false }
/-- combine_list over one row without keys: the row and its flags. -/
def combined (o : OpSpec) (l : List (Option Nat)) : Option Nat × Nat :=
  let r := combineRow o (fun _ _ => none) l.length l 0
  (r.1, r.2.1)
/-- combine_list where application 0 has key bits `u` and every other has 0. -/
def keyedBy (u : Nat) (l : List (Option Nat)) : Option Nat :=
  (combineRow (opOf 0 1) (fun app _ => some (if app = 0 then u else 0)) l.length l 0).1

/-- "Worked example: four BF16 operands in three orders": only KX4's order gives 258. -/
theorem test_combine_four_bf16 : combined (opOf 0 1) [some 0x4380, some 0x3F80, some 0x3F80, some 0x3F80] = (some 0x4381, 0) := by
  decide +kernel

/-- "Worked example: one stochastic rounding": u = 0x30000000 gives 258 and u = 0x90000000 gives 260. -/
theorem test_keyed_rounding : keyedBy 0x30000000 [some 0x4380, some 0x3F80, some 0x3F80, some 0x3F80] = some 0x4381 ∧
    keyedBy 0x90000000 [some 0x4380, some 0x3F80, some 0x3F80, some 0x3F80] = some 0x4382 := by decide +kernel

/-- R62: 0x7FFFFFFF, 1 and −1 land 0x7FFFFFFF in both orders, with OVF in one only. -/
theorem test_int32_overflow_flag : combined (opOf 0 5) [some 0x7FFFFFFF, some 1, some 0xFFFFFFFF] = (some 0x7FFFFFFF, fOvf) ∧
    combined (opOf 0 5) [some 1, some 0xFFFFFFFF, some 0x7FFFFFFF] = (some 0x7FFFFFFF, 0) := by decide +kernel

/-- "Worked example: absent against zero": −0 stays −0 beside absent rows, −0 + +0 is +0, and three absent rows stay absent. -/
theorem test_absent_against_zero : combined (opOf 0 1) [some (0x8000 <<< 64), none, none] = (some (0x8000 <<< 64), 0) ∧
    combined (opOf 0 1) [some (0x8000 <<< 64), some 0] = (some 0, 0) ∧ combined (opOf 0 1) [none, none, none] = (none, 0) := by
  decide +kernel

/-- "Worked example: summing two MXFP4 rows": bytes 0, 1 and 16 of the result, no flag. -/
theorem test_mxfp4_sum : combined (opOf 0 10) [some (0x7F <<< 128 + 0x0127), some (0x80 <<< 128 + 0x0017)] =
    (some (0x81 <<< 128 + 0x0016), 0) := by decide +kernel

/-- R63: max(−0, +0) is +0 and min(−0, +0) is −0. -/
theorem test_max_min_zeros : combined (opOf 1 0) [some 0x80000000, some 0] = (some 0, 0) ∧
    combined (opOf 2 0) [some 0x80000000, some 0] = (some 0x80000000, 0) := by decide +kernel

/-! "Worked example: an eleven-member group". -/

def dies7 : List Nat := [0x00, 0x01, 0x02, 0x03, 0x04, 0x08, 0x09, 0x0A, 0x10, 0x15, 0x17]
def g7 (l : List Nat) : GroupDef := { g0 with num := 7, topLevel := topOf l, members := l.map (fun d => (d, 1)) }
/-- Member 4 holds 256.0 and every other member 1.0, in BF16. -/
def operand7 (d : Nat) : Option Nat := some (if d = 4 then 0x4380 else 0x3F80)
def package7 (l : List Nat) (p : Nat) : Option Nat := (combined (opOf 0 1) ((childrenOf (g7 l) 1 p).map operand7)).1
def landed7 (l : List Nat) : Option Nat := (combined (opOf 0 1) ((childrenOf (g7 l) 2 0).map (package7 l))).1

theorem test_eleven_members : topOf dies7 = 2 ∧ childrenOf (g7 dies7) 2 0 = [0, 8, 16] ∧
    childrenOf (g7 dies7) 1 16 = [0x10, 0x15, 0x17] ∧ package7 dies7 0 = some 0x4382 ∧ landed7 dies7 = some 0x4386 := by decide +kernel

/-- After RE-FORM without die 0x0015 every member lands 266, and die 0x0017 has member index 9. -/
theorem test_ten_members_after_reform : landed7 (dies7.erase 0x15) = some 0x4385 ∧ memberIdx (g7 (dies7.erase 0x15)) 0x17 = some 9 := by
  decide +kernel

/-- "Worked example: encoding an accumulation all-reduce": the fields that W0 to W4 state, the cord count and the active steps. -/
def entry12 : PlanEntry :=
  { w0 := 0x000C010003000303, w1 := 0x0000800000030000, w2 := 0, w3 := 0x000000400C800000, w4 := 0x0020000000000000, w5 := 0, w6 := 0, w7 := 0 }
theorem test_entry_fields : [eType entry12, eIdx entry12, eKind entry12, eFmt entry12, eFn entry12, eGroup entry12, ePeriod entry12,
    ePhase entry12] = [0, 12, 0, 1, 0, 3, 4, 3] ∧ [eLen entry12, eCordsField entry12, eEst entry12, eLead entry12, eWindow entry12] =
    [32768, 4, 0x40, 0xC80, 32] ∧ cordsFor entry12 8 = 4 ∧ eActive entry12 1003 = true ∧ eActive entry12 1004 = false := by decide +kernel

/-- "Worked example: finishing the tail of a FP32 reduce": elements 992 to 995 scaled, converted and clamped, then permuted among
themselves as the example's table does (its entry 1003 lies past the valid length, here 4). -/
def tail0 : Word × Word :=
  (putField 32 32 0x3E000000 ||| putField 28 4 1 ||| bitAt 27 true ||| bitAt 26 true ||| bitAt 24 true,
    putField 32 32 0x42800000 ||| putField 0 32 0xC2800000)
def tailRow : Nat := 0x41A00000 + 0x43808000 <<< 32 + 0x447A0000 <<< 64 + 0xC0000000 <<< 96
def tailOut : List (Option Nat) × Nat := finishRows tail0 0 0 false [] 1000 0 (fun _ _ => none) [some tailRow]
theorem test_finish_scale_clamp : (tailOut.1.head?.bind id).map (fun r => (rowElems 16 r).take 4) =
    some [0x4020, 0x4200, 0x4280, 0xBE80] ∧ tailOut.2 = 0 := by decide +kernel
theorem test_finish_permute : permute false 16 [3, 2, 11, 0] 4 [some (0x4020 + 0x4200 <<< 16 + 0x4280 <<< 32 + 0xBE80 <<< 48)] =
    ([some (0xBE80 + 0x4280 <<< 16 + 0x4020 <<< 48)], fOob) := by decide +kernel

/-- "Worked example: one NaN in four dies": the combined FLAGS, CONTROL, FIRST_NF, DIGEST and COUNT lanes of the SEAL row. -/
def contribution (digest count firstNf : Nat) : Option Nat :=
  some (joinElems 32 ((List.range 32).map (fun i => if i = 9 ∨ i = 10 then 1 else if i = 16 then firstNf
    else if i = 24 then digest else if i = 25 then count else 0)))
def sealed4 : Option Nat :=
  (combined { opOf 0 5 with lanes := .seal } [contribution 0x6FFFFFE8 0xFFFFFFFA 0xFFFFFFFF, contribution 0x30000008 2 0xFFFFFFFF,
    contribution 0x30000008 2 0x200C, contribution 0x30000008 2 0xFFFFFFFF]).1
theorem test_seal_digest_cancels : sealed4.map (fun r => [9, 10, 16, 24, 25].map (fun i => ((rowElems 32 r)[i]?).getD 0)) = some [1, 1, 0x200C, 0, 0] := by decide +kernel

/-- CRC-32C of the nine characters 1 to 9 (R195's code) is its published check value. -/
theorem test_crc32c_check : crc32c ([0x31, 0x32, 0x33, 0x34, 0x35, 0x36, 0x37, 0x38, 0x39] : List Byte) = 0xE3069283 := by decide +kernel

/-! ### WellFormed refuses (one ill-formed term for each check) -/

theorem test_refuses_misaligned_addresses : wellFormed (.registerWrite 4 0) = false ∧ wellFormed (.unmappedAccess 4 true) = false ∧
    wellFormed (.coldAccess 4 true) = false ∧ wellFormed (.testRegisterAccess 4 true 0) = false ∧ wellFormed (.registerWrite 8 0) = true := by
  decide
theorem test_refuses_short_data : wellFormed (.flitReceive (.port 0) ⟨0, false, false, 0⟩ []) = false ∧ wellFormed (.imageHeaderRead [0]) = false ∧
    wellFormed (.imageReadDone [0] 0) = false := by decide
theorem test_refuses_short_image : wellFormed (.imageReadDone (List.replicate 64 0) 0) = false := by decide +kernel
theorem test_refuses_untrained_rates : wellFormed (.trainDone 0 3 1) = false ∧ wellFormed (.trainDone 0 0 0) = false ∧
    wellFormed (.trainDone 0 0 1) = true ∧ wellFormed (.moduleTrainingDone 0 true 5) = false ∧
    wellFormed (.moduleTrainingDone 0 true 16) = true := by decide
theorem test_refuses_misnamed_nodes : wellFormed (.combineDone 0 ⟨2, 1, 0⟩ 0 true []) = false ∧
    wellFormed (.combineDone 0 ⟨1, 0, 1⟩ 0 true []) = false ∧ wellFormed (.skewWarning 0 ⟨2, 1, 0⟩ 0) = false ∧
    wellFormed (.skewWarning 0 ⟨2, 8, 0⟩ 0) = true := by decide

/-! ### Single commands -/

/-- R174: the step number is the word's [63:16], taken in IDLE only. -/
theorem test_step_number : (after (exec (.stepNumberWrite 0x50000) (w0 0))).step.number = (w0 0).step.number ∧
    (after (exec (.stepNumberWrite 0x50000) State.reset)).step.number = 5 := by decide +kernel

/-- R300: the request is ignored before the anchor is locked and kindles after. -/
theorem test_kindle_request : (after (exec (.kindleReq 1) State.reset)).kindle.state = .cold ∧
    (after (exec (.kindleReq 1) { State.reset with kindle := { State.reset.kindle with anchorLocked := true, instanceId := 5 } })).kindle.state
      = .kindling := by decide +kernel

/-- The step takes the command at the front of the queue and leaves the rest. -/
theorem test_step_takes_front : (after (step { State.reset with pending := [.stepNumberWrite 0x50000, .tickRead] })).pending = [.tickRead] ∧
    (after (step { State.reset with pending := [.stepNumberWrite 0x50000, .tickRead] })).step.number = 5 := by decide +kernel

end Sys2Proof.Tests
end

section
/-! Host writes through a live register port, write-1-to-clear fields, and STOP_REQ (R8, R180). -/

namespace Sys2Proof.Machine

/-! ### A host write that a live port serves -/

/-- With the port live (R430, R432), a host write ends in what it makes of the answered state. -/
theorem done_hostWrite {T : Touch} {s : State} {f : State → State} (hlive : portLive s = true)
    (hf : Touches T (answered s) (f (answered s))) : done s (hostWrite s f) = .next (f (answered s)) := by
  rw [hostWrite_answered s f hlive]
  exact done_eq (s := answered s) hf

/-! ### Fields that a 1 clears -/

theorem getLsbD_clearOnes {n : Nat} (old : BitVec n) (v : Word) {k : Nat} (hk : k < n) :
    (old &&& ~~~(BitVec.ofNat n (fieldOf v 0 n))).getLsbD k = (old.getLsbD k && !v.getLsbD k) := by
  simp [hk]

/-! ### KX_STEP_CTRL, KX_SEAL_STATUS and KX_FAULT_PENDING -/

section
variable {T : Touch} {s u : State} (v : Word)

theorem writeStepCtrl_eq (s : State) : writeStepCtrl v s =
    if v.getLsbD 0 then { s with step := { s.step with stopPending := true } } else s := rfl

theorem writeStepCtrl_touch (hs : Touches T s u) (h : T.step = true) : Touches T s (writeStepCtrl v u) :=
  onlyIf_touch _ _ hs fun _ ht => ht.stepUpd h _

theorem writeSealStatus_touch (hs : Touches T s u) (h : T.step = true) : Touches T s (writeSealStatus v u) :=
  hs.stepUpd h _

theorem writeFaultPending_touch (hs : Touches T s u) (h : T.faults = true) : Touches T s (writeFaultPending v u) :=
  hs.faultsUpd h _

theorem exec_stopReq (hlive : portLive s = true) : exec (.stopReq v) s = .next (writeStepCtrl v (answered s)) :=
  done_hostWrite hlive (writeStepCtrl_touch v (.refl { step := true } _) rfl)

theorem exec_sealStatusW1c (hlive : portLive s = true) :
    exec (.sealStatusW1c v) s = .next (writeSealStatus v (answered s)) :=
  done_hostWrite hlive (writeSealStatus_touch v (.refl { step := true } _) rfl)

theorem exec_faultPendingW1c (hlive : portLive s = true) :
    exec (.faultPendingW1c v) s = .next (writeFaultPending v (answered s)) :=
  done_hostWrite hlive (writeFaultPending_touch v (.refl { faults := true } _) rfl)

end

/-- Settles O7: each of the three commands is its register's write on the answered state, and a 1 clears bit by bit. -/
theorem stopIsRememberedAndOnesClear : Obligations.StopIsRememberedAndOnesClear := by
  refine ⟨fun s v hlive => ?stop, fun s v hlive => ⟨?sealStatus, ?faultPending⟩⟩
  case stop => rw [exec_stopReq v hlive, writeStepCtrl_eq, answered_step]
  case sealStatus =>
    exact ⟨_, exec_sealStatusW1c v hlive, rfl, fun _ hk => getLsbD_clearOnes s.step.seen v hk⟩
  case faultPending =>
    exact ⟨_, exec_faultPendingW1c v hlive, rfl, fun _ hk => getLsbD_clearOnes s.faults.pending v hk⟩

end Sys2Proof.Machine
end

section
/-! The exact combine functions on one element pair and combine_list with its application index (R34, R35, R62, R66, R68, R81). -/

namespace Sys2Proof.Machine

/-! ### INT32 SUM and the bitwise functions -/

section
variable {o : OpSpec} (key : Option Nat) (a b : Nat)

theorem elemOp_int32Sum (hfn : o.fn = 0) (hfmt : o.fmt = 5) : elemOp o key a b = sumInt a b := by
  simp [elemOp, hfn, hfmt]

theorem elemOp_and (hfn : o.fn = 4) : elemOp o key a b = (a &&& b, 0) := by simp [elemOp, hfn]

theorem elemOp_or (hfn : o.fn = 5) : elemOp o key a b = (a ||| b, 0) := by simp [elemOp, hfn]

theorem elemOp_xor (hfn : o.fn = 6) : elemOp o key a b = (a ^^^ b, 0) := by simp [elemOp, hfn]

/-- The true sum of R62: the operands read as INT32, added without a bound. -/
def int32TrueSum (a b : Nat) : Int := (BitVec.ofNat 32 a).toInt + (BitVec.ofNat 32 b).toInt

variable {a b}

theorem sumInt_flag_outside (h : int32TrueSum a b < -(2 ^ 31) ∨ 2 ^ 31 ≤ int32TrueSum a b) : (sumInt a b).2 = fOvf :=
  if_pos (h.imp_right Int.sub_one_lt_of_le)

theorem sumInt_flag_inside (hlo : -(2 ^ 31) ≤ int32TrueSum a b) (hhi : int32TrueSum a b < 2 ^ 31) : (sumInt a b).2 = 0 :=
  if_neg (not_or.mpr ⟨Int.not_lt.mpr hlo, Int.not_lt.mpr (Int.le_sub_one_of_lt hhi)⟩)

end

/-! ### op_row on absent rows (R67, R68) -/

section
variable (o : OpSpec) (keyOf : Nat → Option Nat)

@[simp] theorem opRow_none_left (r : Option Nat) : opRow o keyOf none r = (r, 0) := by cases r <;> rfl

@[simp] theorem opRow_none_right (l : Option Nat) : opRow o keyOf l none = (l, 0) := by cases l <;> rfl

@[simp] theorem opRow_eq_none_iff (l r : Option Nat) : (opRow o keyOf l r).1 = none ↔ l = none ∧ r = none := by
  cases l with
  | none => simp
  | some a => cases r <;> simp [opRow]

end

/-! ### combine_list as applications to nonempty halves (R34, R81) -/

theorem splitPoint_pos (n : Nat) : 0 < splitPoint n := Nat.two_pow_pos _

theorem splitPoint_lt {n : Nat} (hn : 2 ≤ n) : splitPoint n < n := by
  have : splitPoint n ≤ n - 1 := Nat.log2_self_le (by omega)
  omega

/-- One application of combine_list: the results of the halves joined under the next application index. -/
def applyOnce (o : OpSpec) (keyOf : Nat → Nat → Option Nat) (l r : Option Nat × Nat × Nat) : Option Nat × Nat × Nat :=
  ((opRow o (keyOf r.2.2) l.1 r.1).1, l.2.1 ||| r.2.1 ||| (opRow o (keyOf r.2.2) l.1 r.1).2, r.2.2 + 1)

section
variable (o : OpSpec) (keyOf : Nat → Nat → Option Nat)

theorem combineRow_singleton (fuel : Nat) (x : Option Nat) (next : Nat) :
    combineRow o keyOf fuel [x] next = (x, 0, next) := by cases fuel <;> rfl

theorem combineRow_halves (fuel : Nat) {v : List (Option Nat)} (next : Nat) (hv : 2 ≤ v.length) :
    combineRow o keyOf (fuel + 1) v next =
      applyOnce o keyOf (combineRow o keyOf fuel (v.take (splitPoint v.length)) next)
        (combineRow o keyOf fuel (v.drop (splitPoint v.length))
          (combineRow o keyOf fuel (v.take (splitPoint v.length)) next).2.2) := by
  match v, hv with
  | _ :: _ :: _, _ => rfl

/-- What holds of one operand and is kept by an application to two nonempty halves holds of combine_list. -/
theorem combineRow_induction {P : List (Option Nat) → Nat → Option Nat × Nat × Nat → Prop}
    (single : ∀ x next, P [x] next (x, 0, next))
    (halves : ∀ v w next l r, v ≠ [] → w ≠ [] → P v next l → P w l.2.2 r → P (v ++ w) next (applyOnce o keyOf l r))
    {fuel : Nat} {v : List (Option Nat)} (next : Nat) (hne : v ≠ []) (hfuel : v.length ≤ fuel) :
    P v next (combineRow o keyOf fuel v next) := by
  induction fuel generalizing v next with
  | zero => exact absurd (List.length_eq_zero_iff.mp (Nat.le_zero.mp hfuel)) hne
  | succ fuel ih =>
    match v, hne with
    | [x], _ => rw [combineRow_singleton]; exact single x next
    | x :: y :: zs, _ =>
      have hlen : 2 ≤ (x :: y :: zs).length := Nat.le_add_left 2 zs.length
      rw [combineRow_halves o keyOf fuel next hlen]
      generalize x :: y :: zs = v at hlen hfuel ⊢
      have hpos := splitPoint_pos v.length
      have hlt := splitPoint_lt hlen
      have htake : (v.take (splitPoint v.length)).length = splitPoint v.length := List.length_take_of_le (Nat.le_of_lt hlt)
      have hdrop : (v.drop (splitPoint v.length)).length = v.length - splitPoint v.length := List.length_drop
      have hl : v.take (splitPoint v.length) ≠ [] := List.ne_nil_of_length_pos (by omega)
      have hr : v.drop (splitPoint v.length) ≠ [] := List.ne_nil_of_length_pos (by omega)
      have key := halves _ _ next _ _ hl hr (ih next hl (by omega)) (ih _ hr (by omega))
      rwa [List.take_append_drop] at key

/-! ### What combine_list uses and returns -/

variable {fuel : Nat} {v : List (Option Nat)} (next : Nat) (hne : v ≠ []) (hfuel : v.length ≤ fuel)
include hne hfuel

/-- n operands use n - 1 application indices (R81). -/
theorem combineRow_next : (combineRow o keyOf fuel v next).2.2 = next + (v.length - 1) := by
  refine combineRow_induction o keyOf (P := fun v next r => r.2.2 = next + (v.length - 1)) (fun x next => rfl) ?_
    next hne hfuel
  intro v w next l r hv hw hl hr
  have := List.length_pos_iff.mpr hv
  have := List.length_pos_iff.mpr hw
  simp only [applyOnce, List.length_append]
  omega

/-- A row is absent only where every operand's row is (R68). -/
theorem combineRow_eq_none_iff : (combineRow o keyOf fuel v next).1 = none ↔ ∀ x ∈ v, x = none := by
  refine combineRow_induction o keyOf (P := fun v _ r => r.1 = none ↔ ∀ x ∈ v, x = none) (fun x next => by simp) ?_
    next hne hfuel
  intro v w next l r _ _ hl hr
  simp only [applyOnce, opRow_eq_none_iff, hl, hr, List.forall_mem_append]

/-- At most one present row passes through with no flag (R35, R68). -/
theorem combineRow_of_at_most_one_present (hone : (v.filterMap id).length ≤ 1) :
    (combineRow o keyOf fuel v next).1 = (v.filterMap id).head? ∧ (combineRow o keyOf fuel v next).2.1 = 0 := by
  refine combineRow_induction o keyOf
    (P := fun v _ r => (v.filterMap id).length ≤ 1 → r.1 = (v.filterMap id).head? ∧ r.2.1 = 0)
    (fun x _ _ => by cases x <;> exact ⟨rfl, rfl⟩) ?_ next hne hfuel hone
  intro v w next l r _ _ hl hr hvw
  rw [List.filterMap_append, List.length_append] at hvw
  obtain ⟨hlrow, hlflag⟩ := hl (by omega)
  obtain ⟨hrrow, hrflag⟩ := hr (by omega)
  rw [List.filterMap_append]
  have hempty : v.filterMap id = [] ∨ w.filterMap id = [] := by
    rw [← List.length_eq_zero_iff, ← List.length_eq_zero_iff]
    omega
  obtain hv | hw := hempty
  · simp only [applyOnce, hlrow, hlflag, hrrow, hrflag, hv, List.head?_nil, opRow_none_left, List.nil_append, Nat.or_self, and_self]
  · simp only [applyOnce, hlrow, hlflag, hrrow, hrflag, hw, List.head?_nil, opRow_none_right, List.append_nil, Nat.or_self, and_self]

end

/-! ### The only operand that is present -/

theorem filterMap_id_of_forall_none_or_some {v : List (Option Nat)} {a : Nat} (habs : ∀ y ∈ v, y = none ∨ y = some a) :
    v.filterMap id = List.replicate (v.count (some a)) a := by
  induction v with
  | nil => rfl
  | cons y ys ih =>
    obtain ⟨hy, hys⟩ := List.forall_mem_cons.mp habs
    obtain rfl | rfl := hy
    · rw [List.filterMap_cons_none (f := id) rfl, List.count_cons_of_ne (Option.some_ne_none a).symm, ih hys]
    · rw [List.filterMap_cons_some (f := id) rfl, List.count_cons_self, List.replicate_succ, ih hys]

/-- Where every other row is absent and `x` stands once, the present rows are those of `x`. -/
theorem filterMap_id_of_count_eq_one {v : List (Option Nat)} {x : Option Nat} (habs : ∀ y ∈ v, y = none ∨ y = x)
    (hcount : v.count x = 1) : v.filterMap id = x.toList := by
  cases x with
  | none => exact List.filterMap_eq_nil_iff.mpr fun y hy => (habs y hy).elim id id
  | some a => rw [filterMap_id_of_forall_none_or_some habs, hcount]; rfl

/-- Settles O60: the functions on one pair by their equations, combine_list by induction over its halves. -/
theorem combineListAppliesOpOncePerPair : Obligations.CombineListAppliesOpOncePerPair := by
  refine ⟨fun o key a b _ _ hfn hfmt => ?int32, fun o key a b => ⟨elemOp_and key a b, elemOp_or key a b, elemOp_xor key a b⟩,
    fun o keyOf v fuel next hne hfuel => ⟨combineRow_next o keyOf next hne hfuel,
      combineRow_eq_none_iff o keyOf next hne hfuel, ?single, ?present⟩⟩
  case int32 =>
    rw [elemOp_int32Sum key a b hfn hfmt]
    exact ⟨rfl, sumInt_flag_outside, sumInt_flag_inside⟩
  case single =>
    rintro x rfl
    exact combineRow_singleton o keyOf fuel x next
  case present =>
    intro x _ habs hcount
    have hpresent := filterMap_id_of_count_eq_one habs hcount
    have hone : (v.filterMap id).length ≤ 1 := hpresent ▸ Option.length_toList_le
    rw [← Option.head?_toList (o := x), ← hpresent]
    exact combineRow_of_at_most_one_present o keyOf next hne hfuel hone

end Sys2Proof.Machine
end

section
/-! Reading a cord at a leaf (R106, R126, R132, R133, R138 to R141, R144): the read context, the four commands that move it, and the cord
that leaves. -/

namespace Sys2Proof.Machine

/-! ### Fields of words made of fields -/

theorem fieldOf_or (a b : Word) (lo len : Nat) : fieldOf (a ||| b) lo len = fieldOf a lo len ||| fieldOf b lo len := by
  simp only [fieldOf, BitVec.toNat_or, Nat.shiftRight_or_distrib, Nat.or_mod_two_pow]

theorem fieldOf_putField_same {lo len : Nat} (v : Nat) (h : lo + len ≤ 64) : fieldOf (putField lo len v) lo len = v % 2 ^ len := by
  rw [fieldOf, putField_toNat lo len v h, Nat.shiftRight_eq_div_pow, Nat.mul_div_cancel _ (Nat.two_pow_pos lo), Nat.mod_mod]

theorem fieldOf_putField_apart {lo len lo' len' : Nat} (v : Nat) (h : lo + len ≤ lo' ∨ lo' + len' ≤ lo) :
    fieldOf (putField lo len v) lo' len' = 0 := by
  refine Nat.eq_of_testBit_eq fun i => ?_
  rw [fieldOf, Nat.testBit_mod_two_pow, Nat.testBit_shiftRight, ← BitVec.getLsbD, getLsbD_putField, Nat.zero_testBit]
  by_cases hi : i < len'
  · have houtside : ¬(lo ≤ lo' + i ∧ lo' + i < lo + len) := by omega
    simp only [Bool.and_eq_false_iff, decide_eq_false_iff_not]
    omega
  · simp [hi]

theorem fieldOf_mkW0_plan (fmt kind plan level epoch source : Nat) : fieldOf (mkW0 fmt kind plan level epoch source) 36 12 = plan % 4096 := by
  simp [mkW0, fieldOf_or, fieldOf_putField_apart, fieldOf_putField_same]

theorem fieldOf_mkW1_step (step idx : Nat) : fieldOf (mkW1 step idx) 16 48 = step % 2 ^ 48 := by
  simp [mkW1, fieldOf_or, fieldOf_putField_apart, fieldOf_putField_same]

theorem fieldOf_mkW1_idx (step idx : Nat) : fieldOf (mkW1 step idx) 0 16 = idx % 65536 := by
  simp [mkW1, fieldOf_or, fieldOf_putField_apart, fieldOf_putField_same]

theorem fieldOf_mkW2_rows (target tile rows flags : Nat) : fieldOf (mkW2 target tile rows flags) 16 16 = rows % 65536 := by
  simp [mkW2, fieldOf_or, fieldOf_putField_apart, fieldOf_putField_same]

/-! ### The header of a leaf's cord -/

section
variable (s : State) (e : PlanEntry) (t c rows flags mask : Nat) (payload : List Byte)

theorem cPlan_leafCord : cPlan (leafCord s e t c rows flags mask payload) = eIdx e % 4096 := fieldOf_mkW0_plan ..

theorem cIdx_leafCord : cIdx (leafCord s e t c rows flags mask payload) = c % 65536 := fieldOf_mkW1_idx ..

theorem cRows_leafCord : cRows (leafCord s e t c rows flags mask payload) = rows % 65536 := fieldOf_mkW2_rows ..

theorem cStep_leafCord : cStep (leafCord s e t c rows flags mask payload) = stepNo s :=
  (fieldOf_mkW1_step ..).trans (Nat.mod_eq_of_lt s.step.number.isLt)

end

/-! ### Leaves and updates of the state -/

@[simp] theorem leafAt_noteProgress (key k : Nat) (s : State) : leafAt (noteProgress key s) k = leafAt s k := rfl

@[simp] theorem leafAt_segCtr (g off n k : Nat) (s : State) : leafAt (segCtr g off n s) k = leafAt s k := rfl

@[simp] theorem leafAt_logEv (c n a b k : Nat) (s : State) : leafAt (logEv c n a b s) k = leafAt s k := by
  rw [leafAt, logEv_leaves, leafAt]

/-- A change that gives a leaf back as it was changes no leaf. -/
theorem leafAt_setLeaf_fixed {t : Nat} {f : Leaf → Leaf} {s : State} (h : f (leafAt s t) = leafAt s t) (k : Nat) :
    leafAt (setLeaf t f s) k = leafAt s k := by
  by_cases hk : k = t
  · rw [hk, leafAt_setLeaf, h]
  · exact leafAt_setLeaf_ne t k f s hk

theorem Touches.leafAt_eq {T : Touch} {s u : State} (h : Touches T s u) (hleaves : T.leaves = false) (k : Nat) : leafAt u k = leafAt s k := by
  rw [leafAt, h.leaves hleaves, leafAt]

theorem Touches.cordsUnderWay_eq {T : Touch} {s u : State} (h : Touches T s u) (hinbox : T.inbox = false) (hfabric : T.fabric = false) :
    cordsUnderWay u = cordsUnderWay s := by
  rw [cordsUnderWay, h.inbox hinbox, h.fabric hfabric, cordsUnderWay]

/-! ### What counting at a leaf may change (R128, R131, R134) -/

section
variable {T : Touch} {s u : State}

theorem requestOne_touch (hs : Touches T s u) (h : T.power = true) (d : Nat) : Touches T s (requestOne d u) := by
  unfold requestOne
  dsimp only
  split
  · exact hs
  · split
    · exact hs
    · exact setDom_touch hs h _ _
    · split
      · exact setDom_touch hs h _ _
      · exact setDom_touch (hs.powerUpd h _) h _ _

theorem requestDom_touch (hs : Touches T s u) (h : T.power = true) (d : Nat) : Touches T s (requestDom d u) := by
  unfold requestDom
  split
  · exact requestOne_touch hs h _
  · split
    · exact requestOne_touch hs h _
    · dsimp only
      split
      · exact setDom_touch (requestOne_touch hs h _) h _ _
      · exact requestOne_touch hs h _

theorem requestDoms_touch (hs : Touches T s u) (h : T.power = true) (ds : List Nat) : Touches T s (requestDoms ds u) :=
  forEach_touch hs ds _ fun d _ hv => requestDom_touch hv h d

theorem counterPreheat_touch (hs : Touches T s u) (h : T.power = true) (t : Nat) (tr : Trig) : Touches T s (counterPreheat t tr u) := by
  unfold counterPreheat
  dsimp only
  split
  · exact hs
  · exact requestDoms_touch (hs.powerUpd h _) h _

theorem leadEvent_touch (hs : Touches T s u) (hlog : T.logs = true) (hctr : T.ctr = true) (hnodes : T.nodes = true) (plan c unit : Nat) :
    Touches T s (leadEvent plan c unit u) := by
  unfold leadEvent
  split
  · exact hs
  · exact logEv_touch (ctrAdd_touch (hs.nodesUpd hnodes _) hctr _ _) hlog _ _ _ _

end

@[simp] theorem leafAt_leadEvent (plan c unit : Nat) (s : State) (k : Nat) : leafAt (leadEvent plan c unit s) k = leafAt s k :=
  (leadEvent_touch (T := { log := true, exc := true, free := true, ctr := true, nodes := true }) (.refl _ s) rfl rfl rfl plan c unit).leafAt_eq
    rfl k

/-- The parts that the events and pre-heats of a scan may change. -/
def scanTouch : Touch := { log := true, exc := true, free := true, power := true }

/-- A scan of a leaf's entries changes its triggers, permits, samples and firing queue, then logs and asks for domains. -/
theorem scanLeaf_after_setLeaf (t : Nat) (s : State) :
    ∃ f : Leaf → Leaf, (∀ l, (f l).reading = l.reading) ∧ Touches scanTouch (setLeaf t f s) (scanLeaf t s) := by
  unfold scanLeaf
  refine ⟨_, ?keeps, forEach_touch (forEach_touch (.refl _ _) _ _ ?events) _ _ ?preheats⟩
  case events => exact fun _ _ hv => logEv_touch hv rfl _ _ _ _
  case preheats => exact fun _ _ hv => counterPreheat_touch hv rfl _ _
  case keeps => exact fun _ => rfl

/-- The parts that counting at a leaf may change. -/
def bumpTouch : Touch := { scanTouch with leaves := true }

theorem scanLeaf_touch {s u : State} (hs : Touches bumpTouch s u) (t : Nat) : Touches bumpTouch s (scanLeaf t u) := by
  obtain ⟨f, -, hscan⟩ := scanLeaf_after_setLeaf t u
  exact (setLeaf_touch hs rfl t f).trans (hscan.mono rfl)

theorem bump_touch (t c k : Nat) (s : State) : Touches bumpTouch s (bump t c k s) := by
  unfold bump
  dsimp only
  refine scanLeaf_touch ?_ t
  split
  · exact logEv_touch (setLeaf_touch (.refl _ _) rfl _ _) rfl _ _ _ _
  · exact setLeaf_touch (.refl _ _) rfl _ _

theorem reading_scanLeaf (t : Nat) (s : State) : (leafAt (scanLeaf t s) t).reading = (leafAt s t).reading := by
  obtain ⟨f, hf, hscan⟩ := scanLeaf_after_setLeaf t s
  rw [hscan.leafAt_eq rfl, leafAt_setLeaf, hf]

@[simp] theorem reading_bump (t c k : Nat) (s : State) : (leafAt (bump t c k s) t).reading = (leafAt s t).reading := by
  unfold bump
  dsimp only
  rw [reading_scanLeaf]
  split <;> simp

/-! ### A cord leaves its leaf (R47, R109, R110, R141) -/

/-- The parts that a cord which leaves its leaf may change. -/
def sendTouch : Touch := { step := true, links := true, inbox := true, fabric := true }

theorem sendToDie_touch {s u : State} (hs : Touches sendTouch s u) (t die vc : Nat) (c : Cord) :
    Touches sendTouch s (sendToDie t die vc c u) := by
  unfold sendToDie
  dsimp only
  split
  · exact deliver_touch hs rfl _
  · exact sendInst_touch hs rfl _ _ _ _ _ _

theorem sendLeafCord_touch (t : Nat) (e : PlanEntry) (c : Cord) (s : State) : Touches sendTouch s (sendLeafCord t e c s) := by
  have hminus := addDigest_touch (.refl sendTouch s) rfl (eIdx e) (0 - cordDigest c) (0 - 1)
  unfold sendLeafCord
  dsimp only
  split
  · exact sendToDie_touch hminus _ _ _ _
  · split
    · exact sendToDie_touch (hminus.stepUpd rfl _) _ _ _ _
    · exact toStops_touch (.refl _ _) rfl _ _ _ _ _ (.inr rfl) (.inr rfl)

@[simp] theorem leafAt_sendToDie (t die vc k : Nat) (c : Cord) (s : State) : leafAt (sendToDie t die vc c s) k = leafAt s k :=
  (sendToDie_touch (.refl _ _) t die vc c).leafAt_eq rfl k

@[simp] theorem leafAt_sendLeafCord (t k : Nat) (e : PlanEntry) (c : Cord) (s : State) : leafAt (sendLeafCord t e c s) k = leafAt s k :=
  (sendLeafCord_touch t e c s).leafAt_eq rfl k

@[simp] theorem leafAt_originate (e : PlanEntry) (s : State) (k : Nat) : leafAt (originate e s) k = leafAt s k :=
  (originate_touch (.refl { step := true } s) rfl e).leafAt_eq rfl k

theorem mem_cordsUnderWay_deliver {a : Arrival} {c : Cord} (s : State) (ha : a.body = .cord c) : c ∈ cordsUnderWay (deliver a s) := by
  refine List.mem_filterMap.mpr ⟨a, ?_, by rw [ha]⟩
  simp [deliver]

theorem mem_cordsUnderWay_queueItem {a : Arrival} {c : Cord} (again : Bool) (here : Nat) (ds : List Nat) (vc : Nat) (s : State)
    (ha : a.body = .cord c) : c ∈ cordsUnderWay (queueItem again here ds vc a [] s) := by
  refine List.mem_filterMap.mpr ⟨a, ?_, by rw [ha]⟩
  simp [queueItem]

theorem unitAt_stopOf_unitSeg : ∀ g < 16, unitAt (stopOf (unitSeg g)) = unitSeg g := by decide

/-- What goes from a segment to one unit waits at the segment's stop for the rings, or has arrived where that is the unit's stop too. -/
theorem toStops_of_segment {g : Nat} (hg : g < 16) (unit vc : Nat) (a : Arrival) (s : State) :
    toStops (unitSeg g) [unit] vc a [] s =
      if stopOf unit = stopOf (unitSeg g) then deliver a s
      else queueItem false (stopOf (unitSeg g)) [stopOf unit] vc a [] s := by
  have hinside : ¬ unitAt (stopOf (unitSeg g)) < 0x30 := by
    rw [unitAt_stopOf_unitSeg g hg, unitSeg]
    omega
  by_cases hsame : stopOf unit = stopOf (unitSeg g)
  · simp [toStops, onRings, sortedSet, insertNat, hsame, ejectAt, hinside]
  · simp [toStops, onRings, sortedSet, insertNat, hsame, Ne.symm hsame]

/-- A cord of a kind that the tree combines, or of a BARRIER, is on its way to its segment node (R47). -/
theorem mem_cordsUnderWay_sendLeafCord {t : Nat} (ht : t < 576) {e : PlanEntry} (hkind : eKind e ≤ 6) (c : Cord) (s : State) :
    c ∈ cordsUnderWay (sendLeafCord t e c s) := by
  have hpass : eKind e ≠ 7 := by omega
  have hmirror : eKind e ≠ 8 := by omega
  have hseg : segOf t < 16 := by
    rw [segOf]
    omega
  unfold sendLeafCord
  dsimp only
  rw [if_neg hpass, if_neg hmirror, toStops_of_segment hseg]
  split
  · exact mem_cordsUnderWay_deliver s rfl
  · exact mem_cordsUnderWay_queueItem _ _ _ _ s rfl

/-! ### The last beat of a read -/

@[simp] theorem leafAt_sendCount (t k : Nat) (e : PlanEntry) (c : Nat) (s : State) : leafAt (sendCount t e c s) k = leafAt s k :=
  leafAt_sendLeafCord ..

@[simp] theorem reading_issueCounts (t n : Nat) (s : State) : (leafAt (issueCounts t n s) t).reading = (leafAt s t).reading := by
  induction n generalizing s with
  | zero => rfl
  | succ n ih =>
    unfold issueCounts
    split
    · rfl
    · split
      · rfl
      · split
        · simp [ih]
        · rfl

/-- The last data cord of a GATHER slot, which the count and total cords follow (R103). -/
def endsSlot (e : PlanEntry) (c : Nat) : Bool := eKind e == 4 && c % eQ e == eQ e - 1

/-- The flags of the rows of a cord that were read (R73). -/
def flagsRead (e : PlanEntry) (rows : List (Option Nat)) : Nat :=
  (rows.filterMap id).foldl (fun a v => a ||| leafRowFlags (eFn e) (eFmt e) v) 0

/-- The cord that a finished read sends (R141), DROP set where its slot dropped rows (R102). -/
def cordRead (s : State) (e : PlanEntry) (t : Nat) (r : ReadCtx) : Cord :=
  let rows := readRows s e t r
  let drop := if endsSlot e r.firing.cord && decide (eCap e < smGet 0 (leafAt s t).gatherL (eIdx e)) then fDrop else 0
  leafCord s e t r.firing.cord rows.length (flagsRead e rows ||| drop) (maskOfRows rows)
    (payloadOfRows (rowBytes (eMl e) (eFmt e)) 0 rows)

/-- The read is over: a GATHER counts its rows (R103), and a non-finite value has its origin noted (R372). -/
def endRead (t : Nat) (e : PlanEntry) (rows : List (Option Nat)) (s : State) : State :=
  let ended := setLeaf t (fun l => { l with reading := none }) s
  let counted := if eKind e = 4 then
      setLeaf t (fun l => { l with gatherRead := smMod 0 l.gatherRead (eIdx e) (· + (rows.filterMap id).length) }) ended else ended
  if flagsRead e rows = 0 then counted else originate e counted

/-- The release counter of the slot's trigger entry counts the read (R143). -/
def releaseSlot (t : Nat) (r : ReadCtx) (tr : Option Trig) (s : State) : State :=
  match tr with
  | some x => if trReleaseEn x.w1 && (r.maskKnown || !r.got.isEmpty) then bump t (trRelease x.w1) 1 s else s
  | none => s

/-- The count and total cords of a slot join the firing queue in front (R103). -/
def queueCounts (s : State) (t slot : Nat) (e : PlanEntry) (u : State) : State :=
  let p := posNow s e
  let k := (positionNow s e (tileIdx s t)).getD 0
  setLeaf t (fun l => { l with fireQ :=
    { slot := slot, plan := eIdx e, cord := p * eQ e + k / 128, kind := .count } ::
      { slot := slot, plan := eIdx e, cord := p * eQ e + ceilDiv p 128, kind := .total } :: l.fireQ }) u

section
variable {s : State} {t : Nat} {r : ReadCtx} {e : PlanEntry}

theorem finishRead_data (hentry : entryAt s r.firing.plan = some e) (hrestore : r.restore = none) :
    finishRead t r s =
      let sent := releaseSlot t r ((leafAt s t).trigs.find? (fun tr => tr.slot == r.firing.slot))
        (sendLeafCord t e (cordRead s e t r) (endRead t e (readRows s e t r) s))
      if endsSlot e r.firing.cord then issueCounts t 2 (queueCounts s t r.firing.slot e sent) else sent := by
  unfold finishRead
  simp only [hentry, hrestore]
  rfl

theorem reading_endRead (rows : List (Option Nat)) : (leafAt (endRead t e rows s) t).reading = none := by
  unfold endRead
  dsimp only
  split <;> split <;> simp

@[simp] theorem reading_releaseSlot (tr : Option Trig) (u : State) :
    (leafAt (releaseSlot t r tr u) t).reading = (leafAt u t).reading := by
  unfold releaseSlot
  split
  · split
    · exact reading_bump ..
    · rfl
  · rfl

theorem cordsUnderWay_releaseSlot (tr : Option Trig) (u : State) : cordsUnderWay (releaseSlot t r tr u) = cordsUnderWay u := by
  unfold releaseSlot
  split
  · split
    · exact (bump_touch ..).cordsUnderWay_eq rfl rfl
    · rfl
  · rfl

variable (s t r)

theorem reading_finishRead : (leafAt (finishRead t r s) t).reading = none := by
  cases hentry : entryAt s r.firing.plan with
  | none => simp [finishRead, hentry]
  | some e =>
    cases hrestore : r.restore with
    | some twin => simp [finishRead, hentry, hrestore]
    | none =>
      rw [finishRead_data hentry hrestore]
      dsimp only
      split <;> simp [queueCounts, reading_endRead]

variable {s t r}

/-- A combining or broadcast kind sends the cord that was read, and nothing follows it (R141). -/
theorem cordRead_mem_finishRead (ht : t < 576) (hentry : entryAt s r.firing.plan = some e) (hrestore : r.restore = none)
    (hkind : eKind e ≤ 3) : cordRead s e t r ∈ cordsUnderWay (finishRead t r s) := by
  have hslot : endsSlot e r.firing.cord = false := by
    have : eKind e ≠ 4 := by omega
    simp [endsSlot, this]
  rw [finishRead_data hentry hrestore]
  simp only [hslot, Bool.false_eq_true, if_false, cordsUnderWay_releaseSlot]
  exact mem_cordsUnderWay_sendLeafCord ht (by omega) _ _

theorem cRows_cordRead : cRows (cordRead s e t r) = r.rows % 65536 := by
  simp [cordRead, cRows_leafCord, readRows]

end

/-! ### Where a read stands -/

section
variable {s : State} {t : Nat} {r : ReadCtx}

theorem checkRead_unfinished (hr : (leafAt s t).reading = some r) (hleft : r.want ≠ [] ∨ r.wait ≠ []) : checkRead t s = s := by
  have : (!r.want.isEmpty || !r.wait.isEmpty) = true := by simpa using hleft
  simp [checkRead, hr, this]

theorem checkRead_void (hr : (leafAt s t).reading = some r) (hwant : r.want = []) (hwait : r.wait = []) (hvoid : r.void = true) :
    checkRead t s = setLeaf t (fun l => { l with reading := none }) s := by
  simp [checkRead, hr, hwant, hwait, hvoid]

theorem checkRead_finished (hr : (leafAt s t).reading = some r) (hwant : r.want = []) (hwait : r.wait = []) (hvoid : r.void = false) :
    checkRead t s = finishRead t r s := by
  simp [checkRead, hr, hwant, hwait, hvoid]

end

/-- The read context at the start of a cord (R132, R139, R140): what the leaf wants is the mask line, where there is one that counts, else the
beats of the rows that may be present. -/
def readBegun (e : PlanEntry) (positions : Nat) (l : Leaf) (f : Firing) : ReadCtx :=
  let rows := rowsOfCord e positions f.cord
  let ring := match l.trigs.find? (fun tr => tr.slot == f.slot) with
    | some tr => smGet 0 l.rings (trRing tr.w0)
    | none => 0
  let b := stagingBase e ring (if eKind e = 4 then f.cord % eQ e else f.cord)
  let offered := offeredMask e l f.cord rows
  { firing := f,
    want := if b.2 && eKind e != 8 then [{ addr := beatAddr (b.1 - 64), half := 3, isMask := true }]
      else rowBeats b.1 (rowPitch (eMl e) (eFmt e)) rows offered,
    wait := [], got := [], mask := BitVec.ofNat 256 offered, maskKnown := false, rows := rows, base := b.1, restore := none,
    stalled := false, void := false }

/-- The state in which a leaf has begun to read. -/
def beganRead (t : Nat) (r : ReadCtx) (s : State) : State :=
  setLeaf t (fun l => { l with reading := some r }) (noteProgress (progKey 1 0 t) s)

@[simp] theorem leafAt_beganRead (t : Nat) (r : ReadCtx) (s : State) :
    leafAt (beganRead t r s) t = { leafAt s t with reading := some r } := leafAt_setLeaf ..

theorem leafAt_beganRead_ne {t k : Nat} (r : ReadCtx) (s : State) (h : k ≠ t) : leafAt (beganRead t r s) k = leafAt s k :=
  leafAt_setLeaf_ne _ _ _ _ h

theorem beginRead_eq (t : Nat) (e : PlanEntry) (f : Firing) (s : State) :
    beginRead t e f s = checkRead t (beganRead t (readBegun e (posNow s e) (leafAt s t) f) s) := rfl

/-! ### Starting a read (R106, R132, R193) -/

section
variable {s : State} {t : Nat}

theorem startRead_idle (hfire : (leafAt s t).fireQ = []) (hrestore : (leafAt s t).restoreQ = []) : startRead t s = s := by
  simp [startRead, hfire, hrestore]

variable {f : Firing} {q : List Firing} {e : PlanEntry} (hfire : (leafAt s t).fireQ = f :: q) (hentry : entryAt s f.plan = some e)
include hfire hentry

theorem startRead_data (hoffer : mayOffer s t f = true) (hdata : f.kind = .data) (hread : eKind e ≠ 5) :
    startRead t s = beginRead t e f (setLeaf t (fun l => { l with fireQ := q }) s) := by
  simp [startRead, hfire, hentry, hoffer, hdata, hread]

theorem startRead_barrier (hoffer : mayOffer s t f = true) (hdata : f.kind = .data) (hbarrier : eKind e = 5) :
    startRead t s = sendLeafCord t e (leafCord s e t f.cord 0 0 0 []) (setLeaf t (fun l => { l with fireQ := q }) s) := by
  simp [startRead, hfire, hentry, hoffer, hdata, hbarrier]

theorem startRead_held (hoffer : mayOffer s t f = false) (hrestore : (leafAt s t).restoreQ = []) :
    startRead t s = leadEvent f.plan f.cord (unitSeg (segOf t)) s := by
  simp [startRead, hfire, hentry, hoffer, hrestore]

theorem startRead_restore {r : ReadCtx} {rs : List ReadCtx} (hoffer : mayOffer s t f = false) (hrestore : (leafAt s t).restoreQ = r :: rs) :
    startRead t s = checkRead t (setLeaf t (fun l => { l with reading := some r, restoreQ := rs })
      (leadEvent f.plan f.cord (unitSeg (segOf t)) s)) := by
  simp [startRead, hfire, hentry, hoffer, hrestore]

end

/-! ### The state that a command leaves -/

/-- A state with the queue of commands and the integration parameters of another. -/
def keepQueue (s u : State) : State := { u with params := s.params, pending := s.pending }

theorem done_onlyIf_true {b : Bool} {s : State} {f : State → State} (h : b = true) :
    done s (onlyIf b s f) = .next (keepQueue s (f s)) := by
  rw [h]
  rfl

theorem done_onlyIf_false {b : Bool} {s : State} {f : State → State} (h : b = false) : done s (onlyIf b s f) = .next s := by
  rw [h]
  rfl

@[simp] theorem keepQueue_self (s : State) : keepQueue s s = s := rfl
@[simp] theorem keepQueue_step (s u : State) : (keepQueue s u).step = u.step := rfl
@[simp] theorem keepQueue_ctr (s u : State) : (keepQueue s u).ctr = u.ctr := rfl
@[simp] theorem leafAt_keepQueue (s u : State) (k : Nat) : leafAt (keepQueue s u) k = leafAt u k := rfl

/-! ### The beats that a cord begins with (R138 to R140, R133) -/

section
variable {e : PlanEntry} {l : Leaf} {f : Firing} {tr : Trig} (positions : Nat) (htrig : l.trigs.find? (fun x => x.slot == f.slot) = some tr)
include htrig

theorem readBegun_base : (readBegun e positions l f).base =
    (stagingBase e (smGet 0 l.rings (trRing tr.w0)) (if eKind e = 4 then f.cord % eQ e else f.cord)).1 := by
  simp only [readBegun, htrig]

theorem readBegun_want : (readBegun e positions l f).want =
    if srMaskLine (smGet 0 l.rings (trRing tr.w0)) && eKind e != 8 then
      [{ addr := beatAddr ((readBegun e positions l f).base - 64), half := 3, isMask := true }]
    else rowBeats (readBegun e positions l f).base (rowPitch (eMl e) (eFmt e)) (rowsOfCord e positions f.cord)
      (offeredMask e l f.cord (rowsOfCord e positions f.cord)) := by
  simp only [readBegun, htrig, stagingBase]

theorem readBegun_want_maskLine (hline : srMaskLine (smGet 0 l.rings (trRing tr.w0)) = true) (hmirror : eKind e ≠ 8) :
    (readBegun e positions l f).want = [{ addr := beatAddr ((readBegun e positions l f).base - 64), half := 3, isMask := true }] := by
  rw [readBegun_want positions htrig, hline, if_pos (by simpa using hmirror)]

theorem readBegun_want_rows (hline : srMaskLine (smGet 0 l.rings (trRing tr.w0)) = false ∨ eKind e = 8) :
    (readBegun e positions l f).want = rowBeats (readBegun e positions l f).base (rowPitch (eMl e) (eFmt e))
      (rowsOfCord e positions f.cord) (offeredMask e l f.cord (rowsOfCord e positions f.cord)) := by
  rw [readBegun_want positions htrig, if_neg]
  obtain hline | hmirror := hline
  · rw [hline, Bool.false_and]
    exact Bool.false_ne_true
  · simp [hmirror]

end

/-! ### CORD_READ_START -/

section
variable {s : State} {t : Fin 576}

theorem exec_cordReadStart_busy (hbusy : (leafAt s t.val).reading.isSome = true) : exec (.cordReadStart t) s = .next s :=
  done_onlyIf_false (by rw [Option.isNone_eq_false_iff.mpr hbusy, Bool.and_false])

theorem exec_cordReadStart (hlive : leafLive s t.val = true) (hfree : (leafAt s t.val).reading = none) :
    exec (.cordReadStart t) s = .next (keepQueue s (startRead t.val s)) :=
  done_onlyIf_true (by rw [hlive, hfree]; rfl)

theorem cordReadStart_idle (hlive : leafLive s t.val = true)
    (hidle : (leafAt s t.val).reading.isSome = true ∨ ((leafAt s t.val).fireQ = [] ∧ (leafAt s t.val).restoreQ = [])) :
    exec (.cordReadStart t) s = .next s := by
  by_cases hbusy : (leafAt s t.val).reading.isSome = true
  · exact exec_cordReadStart_busy hbusy
  · obtain ⟨hfire, hrestore⟩ := hidle.resolve_left hbusy
    rw [exec_cordReadStart hlive (Option.not_isSome_iff_eq_none.mp hbusy), startRead_idle hfire hrestore, keepQueue_self]

variable (hlive : leafLive s t.val = true) (hfree : (leafAt s t.val).reading = none)
include hlive hfree
variable {f : Firing} {q : List Firing} {e : PlanEntry} (hfire : (leafAt s t.val).fireQ = f :: q) (hentry : entryAt s f.plan = some e)
include hfire hentry

/-- A data cord that has a beat to ask for: its read context is the leaf's, it is off the firing queue, and the leaf's timer is restarted. -/
theorem cordReadStart_data (hoffer : mayOffer s t.val f = true) (hdata : f.kind = .data) (hread : eKind e ≠ 5)
    (hwant : (readBegun e (posNow s e) (leafAt s t.val) f).want ≠ []) :
    ∃ u, exec (.cordReadStart t) s = .next u ∧ u = { timed s u with leaves := u.leaves } ∧
      leafAt u t.val = { leafAt s t.val with fireQ := q, reading := some (readBegun e (posNow s e) (leafAt s t.val) f) } ∧
      ∀ k, k ≠ t.val → leafAt u k = leafAt s k := by
  have hbegun : startRead t.val s = beganRead t.val (readBegun e (posNow s e) (leafAt s t.val) f)
      (setLeaf t.val (fun l => { l with fireQ := q }) s) := by
    rw [startRead_data hfire hentry hoffer hdata hread, beginRead_eq, leafAt_setLeaf]
    exact checkRead_unfinished (congrArg Leaf.reading (leafAt_beganRead ..)) (.inl hwant)
  rw [exec_cordReadStart hlive hfree, hbegun]
  exact ⟨_, rfl, rfl, by simp, fun k hk => by simp [leafAt_beganRead_ne _ _ hk, leafAt_setLeaf_ne _ _ _ _ hk]⟩

theorem cordReadStart_barrier (hoffer : mayOffer s t.val f = true) (hdata : f.kind = .data) (hbarrier : eKind e = 5) :
    ∃ u, exec (.cordReadStart t) s = .next u ∧ leafAt u t.val = { leafAt s t.val with fireQ := q } ∧
      ∃ c ∈ cordsUnderWay u, c = leafCord s e t.val f.cord 0 0 0 [] := by
  rw [exec_cordReadStart hlive hfree, startRead_barrier hfire hentry hoffer hdata hbarrier]
  exact ⟨_, rfl, by simp, _, mem_cordsUnderWay_sendLeafCord t.isLt (by omega) _ _, rfl⟩

theorem cordReadStart_held (hoffer : mayOffer s t.val f = false) (hrestore : (leafAt s t.val).restoreQ = []) :
    ∃ u, exec (.cordReadStart t) s = .next u ∧ ∀ k, leafAt u k = leafAt s k := by
  rw [exec_cordReadStart hlive hfree, startRead_held hfire hentry hoffer hrestore]
  exact ⟨_, rfl, fun k => by simp⟩

theorem cordReadStart_restore {r : ReadCtx} {rs : List ReadCtx} (hoffer : mayOffer s t.val f = false)
    (hrestore : (leafAt s t.val).restoreQ = r :: rs) (hwant : r.want ≠ []) :
    ∃ u, exec (.cordReadStart t) s = .next u ∧ leafAt u t.val = { leafAt s t.val with restoreQ := rs, reading := some r } ∧
      ∀ k, k ≠ t.val → leafAt u k = leafAt s k := by
  rw [exec_cordReadStart hlive hfree, startRead_restore hfire hentry hoffer hrestore,
    checkRead_unfinished (by rw [leafAt_setLeaf]) (.inl hwant)]
  exact ⟨_, rfl, by simp, fun k hk => by simp [leafAt_setLeaf_ne _ _ _ _ hk]⟩

end

/-! ### READ_GRANT (R126, R403) -/

/-- The oldest wanted beat is granted. -/
def grantBeat (r : ReadCtx) : ReadCtx :=
  match r.want with
  | b :: bs => { r with want := bs, wait := r.wait ++ [b] }
  | [] => r

section
variable {s : State} {t : Fin 576}

theorem exec_readGrant (hlive : leafLive s t.val = true) : exec (.readGrant t) s =
    .next (keepQueue s
      (setLeaf t.val (fun l => { l with reading := l.reading.map grantBeat }) (noteProgress (progKey 1 0 t.val) s))) :=
  done_onlyIf_true hlive

theorem readGrant_cons {r : ReadCtx} {b : RdBeat} {bs : List RdBeat} (hlive : leafLive s t.val = true)
    (hr : (leafAt s t.val).reading = some r) (hwant : r.want = b :: bs) :
    ∃ u, exec (.readGrant t) s = .next u ∧ u = { timed s u with leaves := u.leaves } ∧
      leafAt u t.val = { leafAt s t.val with reading := some { r with want := bs, wait := r.wait ++ [b] } } ∧
      ∀ k, k ≠ t.val → leafAt u k = leafAt s k := by
  rw [exec_readGrant hlive]
  exact ⟨_, rfl, rfl, by simp [hr, grantBeat, hwant], fun k hk => by simp [leafAt_setLeaf_ne _ _ _ _ hk]⟩

/-- A grant without a beat that is wanted restarts the timer of the leaf alone. -/
theorem readGrant_idle (hlive : leafLive s t.val = true) (hidle : ∀ r, (leafAt s t.val).reading = some r → r.want = []) :
    ∃ u, exec (.readGrant t) s = .next u ∧ u = { timed s u with leaves := u.leaves } ∧ ∀ k, leafAt u k = leafAt s k := by
  have hfixed : (leafAt s t.val).reading.map grantBeat = (leafAt s t.val).reading := by
    cases hr : (leafAt s t.val).reading with
    | none => rfl
    | some r => simp [grantBeat, hidle r hr]
  rw [exec_readGrant hlive]
  refine ⟨_, rfl, rfl, fun k => ?_⟩
  rw [leafAt_keepQueue, leafAt_setLeaf_fixed, leafAt_noteProgress]
  rw [leafAt_noteProgress, hfixed]

end

/-! ### READ_DATA (R126, R139, R141) -/

section
variable {e : PlanEntry} {l : Leaf} {d : BitVec 512} {r : ReadCtx}

/-- Data that come back move neither the cord nor the purpose of its read. -/
theorem takeBeat_keeps : (takeBeat e l d r).firing = r.firing ∧ (takeBeat e l d r).rows = r.rows ∧
    (takeBeat e l d r).restore = r.restore ∧ (takeBeat e l d r).void = r.void := by
  unfold takeBeat
  split
  · exact ⟨rfl, rfl, rfl, rfl⟩
  · split <;> exact ⟨rfl, rfl, rfl, rfl⟩

theorem takeBeat_of_row {b : RdBeat} {bs : List RdBeat} (hwait : r.wait = b :: bs) (hrow : b.isMask = false) :
    takeBeat e l d r = { r with wait := bs, got := r.got ++ [(b.addr, leBytes 64 d.toNat)] } := by
  simp [takeBeat, hwait, hrow]

end

section
variable {s : State} {t : Fin 576} (d : BitVec 512)

theorem exec_readData (hlive : leafLive s t.val = true) : exec (.readData t d) s = .next (keepQueue s (readData t.val d s)) :=
  done_onlyIf_true hlive

theorem exec_readData_free (hlive : leafLive s t.val = true) (hfree : (leafAt s t.val).reading = none) :
    exec (.readData t d) s = .next s := by
  rw [exec_readData d hlive]
  simp [readData, hfree]

variable {r : ReadCtx} (hr : (leafAt s t.val).reading = some r)
include hr

theorem readData_void {b : RdBeat} {bs : List RdBeat} (hvoid : r.void = true) (hwait : r.wait = b :: bs) :
    readData t.val d s = checkRead t.val (setLeaf t.val (fun l => { l with reading := some { r with wait := bs } }) s) := by
  simp [readData, hr, hvoid, hwait]

theorem readData_taken {e : PlanEntry} (hentry : entryAt s r.firing.plan = some e) (hwait : r.wait ≠ []) (hvoid : r.void = false) :
    readData t.val d s =
      checkRead t.val (setLeaf t.val (fun l => { l with reading := some (takeBeat e l d r) }) s) := by
  simp [readData, hr, hvoid, hwait, hentry]

variable (hlive : leafLive s t.val = true)
include hlive

/-- A read given up keeps its beats, and ends with the last of them (R126, R182). -/
theorem readData_of_void {b : RdBeat} {bs : List RdBeat} (hvoid : r.void = true) (hwait : r.wait = b :: bs) :
    ∃ u, exec (.readData t d) s = .next u ∧ u = { s with leaves := u.leaves } ∧
      leafAt u t.val = { leafAt s t.val with reading := if r.want = [] ∧ bs = [] then none else some { r with wait := bs } } := by
  rw [exec_readData d hlive, readData_void d hr hvoid hwait]
  by_cases hlast : r.want = [] ∧ bs = []
  · rw [checkRead_void (r := { r with wait := bs }) (by rw [leafAt_setLeaf]) hlast.1 hlast.2 hvoid, if_pos hlast]
    exact ⟨_, rfl, rfl, by simp⟩
  · rw [checkRead_unfinished (by rw [leafAt_setLeaf]) (Classical.not_and_iff_not_or_not.mp hlast), if_neg hlast]
    exact ⟨_, rfl, rfl, by simp⟩

variable {e : PlanEntry} (hentry : entryAt s r.firing.plan = some e) (hwait : r.wait ≠ []) (hvoid : r.void = false)
include hentry hwait hvoid

theorem readData_unfinished
    (hleft : (takeBeat e (leafAt s t.val) d r).want ≠ [] ∨ (takeBeat e (leafAt s t.val) d r).wait ≠ []) :
    ∃ u, exec (.readData t d) s = .next u ∧ u = { s with leaves := u.leaves } ∧
      leafAt u t.val = { leafAt s t.val with reading := some (takeBeat e (leafAt s t.val) d r) } ∧
      ∀ k, k ≠ t.val → leafAt u k = leafAt s k := by
  rw [exec_readData d hlive, readData_taken d hr hentry hwait hvoid, checkRead_unfinished (by rw [leafAt_setLeaf]) hleft]
  exact ⟨_, rfl, rfl, by simp, fun k hk => by simp [leafAt_setLeaf_ne _ _ _ _ hk]⟩

theorem readData_finished (hwantLast : (takeBeat e (leafAt s t.val) d r).want = [])
    (hwaitLast : (takeBeat e (leafAt s t.val) d r).wait = []) :
    ∃ u, exec (.readData t d) s = .next u ∧ (leafAt u t.val).reading = none ∧
      (eKind e ≤ 3 → r.restore = none → ∃ c ∈ cordsUnderWay u, cPlan c = eIdx e % 4096 ∧ cIdx c = r.firing.cord % 65536 ∧
        cStep c = stepNo s ∧ cRows c = r.rows % 65536) := by
  obtain ⟨hfiring, hrows, hrestore, hgiven⟩ := takeBeat_keeps (e := e) (l := leafAt s t.val) (d := d) (r := r)
  rw [exec_readData d hlive, readData_taken d hr hentry hwait hvoid,
    checkRead_finished (by rw [leafAt_setLeaf]) hwantLast hwaitLast (hgiven.trans hvoid)]
  refine ⟨_, rfl, reading_finishRead .., fun hkind hdata =>
    ⟨_, cordRead_mem_finishRead t.isLt (hfiring ▸ hentry) (hrestore.trans hdata) hkind, cPlan_leafCord .., ?_, cStep_leafCord .., ?_⟩⟩
  · rw [cordRead, cIdx_leafCord, hfiring]
  · rw [cRows_cordRead, hrows]

end

/-! ### STAGING_STALL (R144) -/

section
variable {s : State} {t : Fin 576}

theorem exec_stagingStall (hlive : leafLive s t.val = true) : exec (.stagingStall t) s = .next (keepQueue s (stagingStall t.val s)) :=
  done_onlyIf_true hlive

theorem exec_stagingStall_free (hlive : leafLive s t.val = true) (hfree : (leafAt s t.val).reading = none) :
    exec (.stagingStall t) s = .next s := by
  rw [exec_stagingStall hlive]
  simp [stagingStall, hfree]

variable {r : ReadCtx} (hlive : leafLive s t.val = true) (hr : (leafAt s t.val).reading = some r)
include hlive hr

theorem stagingStall_silent (hsilent : r.want = [] ∨ r.stalled = true ∨ r.void = true) : exec (.stagingStall t) s = .next s := by
  have hskip : (r.want.isEmpty || r.stalled || r.void) = true := by simpa [or_assoc] using hsilent
  rw [exec_stagingStall hlive]
  simp [stagingStall, hr, hskip]

theorem stagingStall_logged (hwant : r.want ≠ []) (hfirst : r.stalled = false) (hvoid : r.void = false) :
    ∃ u, exec (.stagingStall t) s = .next u ∧ u.step.state = s.step.state ∧
      leafAt u t.val = { leafAt s t.val with reading := some { r with stalled := true } } ∧
      (∀ k, k ≠ t.val → leafAt u k = leafAt s k) ∧
      smGet 0 u.ctr (0x460000 + 0x40 * segOf t.val + 0x10) =
        min (smGet 0 s.ctr (0x460000 + 0x40 * segOf t.val + 0x10) + 1) ctrMax := by
  have hstall : stagingStall t.val s = logEv 0x0701 (unitSeg (segOf t.val)) (argTP (tileIdx s t.val) r.firing.plan) r.firing.cord
      (segCtr (segOf t.val) 0x10 1 (setLeaf t.val (fun l => { l with reading := some { r with stalled := true } }) s)) := by
    simp [stagingStall, hr, hwant, hfirst, hvoid]
  rw [exec_stagingStall hlive, hstall]
  refine ⟨_, rfl, by simp [segCtr], by simp, fun k hk => by simp [leafAt_setLeaf_ne _ _ _ _ hk], ?_⟩
  rw [keepQueue_ctr, logEv_ctr]
  exact ctr_ctrAdd ..

end

/-! ### The statement -/

/-- Settles O45: each command by the case of the read context that it meets. -/
theorem leavesReadTheirCords : Obligations.LeavesReadTheirCords := by
  refine ⟨fun s t d => ⟨fun hdead => ?dead, fun hlive => ⟨cordReadStart_idle hlive, fun hfree => ?free,
      fun f q e hfree hfire hentry => ⟨fun tr hoffer hdata hread htrig => ⟨fun hline hmirror => ?maskLine, fun hline hbeats => ?rows⟩,
        cordReadStart_barrier hlive hfree hfire hentry, cordReadStart_held hlive hfree hfire hentry,
        fun r rs => cordReadStart_restore hlive hfree hfire hentry⟩⟩⟩,
    fun s t r hlive hr => ⟨fun b bs => readGrant_cons hlive hr, fun hwant => ?grantNone,
      fun d e hentry hwait hvoid => ⟨fun b bs => takeBeat_of_row, readData_unfinished d hr hlive hentry hwait hvoid,
        readData_finished d hr hlive hentry hwait hvoid⟩,
      fun d b bs => readData_of_void d hr hlive, stagingStall_logged hlive hr, stagingStall_silent hlive hr⟩⟩
  case dead =>
    exact ⟨done_onlyIf_false (by rw [hdead, Bool.false_and]), done_onlyIf_false hdead, done_onlyIf_false hdead, done_onlyIf_false hdead⟩
  case free =>
    refine ⟨readGrant_idle hlive fun r hr => ?_, exec_readData_free d hlive hfree, exec_stagingStall_free hlive hfree⟩
    exact absurd (hfree.symm.trans hr) (Option.some_ne_none r).symm
  case maskLine =>
    have hbase := readBegun_base (e := e) (posNow s e) htrig
    have hwant := readBegun_want_maskLine (e := e) (posNow s e) htrig hline hmirror
    obtain ⟨u, hexec, htimed, hleaf, hother⟩ :=
      cordReadStart_data hlive hfree hfire hentry hoffer hdata hread (hwant ▸ List.cons_ne_nil _ _)
    exact ⟨u, _, hexec, htimed, hleaf, hother, rfl, hbase ▸ hwant, rfl, rfl, hbase, rfl, rfl⟩
  case rows =>
    have hbase := readBegun_base (e := e) (posNow s e) htrig
    have hwant := readBegun_want_rows (e := e) (posNow s e) htrig hline
    rw [hbase] at hwant
    obtain ⟨u, hexec, htimed, hleaf, hother⟩ := cordReadStart_data hlive hfree hfire hentry hoffer hdata hread (hwant ▸ hbeats)
    exact ⟨u, _, hexec, htimed, hleaf, hother, rfl, hwant, rfl, rfl, hbase, rfl, rfl⟩
  case grantNone =>
    exact readGrant_idle hlive fun r' hr' => Option.some_inj.mp (hr.symm.trans hr') ▸ hwant

end Sys2Proof.Machine
end

section
/-! Counting at a leaf (R127 to R129): what one count changes, and the counter port. -/

namespace Sys2Proof.Machine

/-! ### What a scan of a leaf's entries leaves of the leaf -/

/-- Two leaves agree but for what a scan of the entries may change: the triggers, the permits, the samples of GATHER and the firing queue. -/
def sameButScan (l m : Leaf) : Prop := m = { l with trigs := m.trigs, lands := m.lands, gatherL := m.gatherL, fireQ := m.fireQ }

/-- Events and pre-heats touch no leaf, so a scan changes its own leaf alone, and of that one only what its entries do. -/
theorem scanLeaf_of_setLeaf (t : Nat) (s : State) :
    ∃ f : Leaf → Leaf, (∀ l, sameButScan l (f l)) ∧ Touches scanTouch (setLeaf t f s) (scanLeaf t s) := by
  unfold scanLeaf
  refine ⟨_, ?keeps, forEach_touch (forEach_touch (.refl _ _) _ _ ?events) _ _ ?preheats⟩
  case events => exact fun _ _ hv => logEv_touch hv rfl _ _ _ _
  case preheats => exact fun _ _ hv => counterPreheat_touch hv rfl _ _
  case keeps => exact fun _ => rfl

theorem leafAt_scanLeaf (t : Nat) (s : State) : sameButScan (leafAt s t) (leafAt (scanLeaf t s) t) := by
  obtain ⟨f, hf, hscan⟩ := scanLeaf_of_setLeaf t s
  rw [hscan.leafAt_eq rfl, leafAt_setLeaf]
  exact hf _

theorem leafAt_scanLeaf_ne {t k : Nat} (s : State) (h : k ≠ t) : leafAt (scanLeaf t s) k = leafAt s k := by
  obtain ⟨f, -, hscan⟩ := scanLeaf_of_setLeaf t s
  rw [hscan.leafAt_eq rfl, leafAt_setLeaf_ne _ _ _ _ h]

/-! ### One count (R128) -/

/-- A leaf with `k` added to counter `c`, which holds at 0xFFFF_FFFF. -/
def addCount (c k : Nat) (l : Leaf) : Leaf := { l with counters := smSet 0 l.counters c (satOf 32 ((smGet 0 l.counters c).toNat + k)) }

theorem toNat_satOf (w n : Nat) : (satOf w n).toNat = min n (2 ^ w - 1) := by
  unfold satOf
  split
  case isTrue h => simp [Nat.mod_eq_of_lt h]; omega
  case isFalse h => simp; omega

/-- A count is written to the leaf, logged where it saturates, and then seen by the entries. -/
theorem bump_eq_scanLeaf (t c k : Nat) (s : State) : ∃ u, bump t c k s = scanLeaf t u ∧
    leafAt u t = addCount c k (leafAt s t) ∧ ∀ j, j ≠ t → leafAt u j = leafAt s j := by
  refine ⟨_, rfl, ?_⟩
  split
  case isTrue => exact ⟨by rw [leafAt_logEv, leafAt_setLeaf]; rfl, fun j hj => by rw [leafAt_logEv, leafAt_setLeaf_ne _ _ _ _ hj]⟩
  case isFalse => exact ⟨by rw [leafAt_setLeaf]; rfl, fun j hj => leafAt_setLeaf_ne _ _ _ _ hj⟩

section
variable (t c k : Nat) (s : State)

theorem leafAt_bump : sameButScan (addCount c k (leafAt s t)) (leafAt (bump t c k s) t) := by
  obtain ⟨u, hscan, hleaf, -⟩ := bump_eq_scanLeaf t c k s
  rw [hscan, ← hleaf]
  exact leafAt_scanLeaf t u

theorem leafAt_bump_ne {t j : Nat} (h : j ≠ t) : leafAt (bump t c k s) j = leafAt s j := by
  obtain ⟨u, hscan, -, hother⟩ := bump_eq_scanLeaf t c k s
  rw [hscan, leafAt_scanLeaf_ne u h, hother j h]

theorem count_bump : (smGet 0 (leafAt (bump t c k s) t).counters c).toNat =
    min ((smGet 0 (leafAt s t).counters c).toNat + k) 0xFFFFFFFF := by
  exact (congrArg (fun l => (smGet 0 (Leaf.counters l) c).toNat) (leafAt_bump t c k s)).trans (by simp [addCount, toNat_satOf])

theorem count_bump_ne {c j : Nat} (h : j ≠ c) : smGet 0 (leafAt (bump t c k s) t).counters j = smGet 0 (leafAt s t).counters j := by
  rw [congrArg Leaf.counters (leafAt_bump t c k s), addCount, smGet_smSet_ne _ _ _ _ _ _ h]

end

/-! ### The counter port (R127, R129) -/

/-- A counter-port operation that is not a READ lowers LI_CNT_RVALID. -/
def noReadData (l : Leaf) : Leaf := { l with cntRvalid := false }

/-- An operation that is only counted, at a counter of the leaf's segment. -/
def countOnly (off t : Nat) (s : State) : State := segCtr (segOf t) off 1 (setLeaf t noReadData s)

theorem ctr_countOnly (off t o : Nat) (s : State) : smGet 0 (countOnly off t s).ctr o =
    if o = 0x460000 + 0x40 * segOf t + off then min (smGet 0 s.ctr o + 1) ctrMax else smGet 0 s.ctr o := by
  split
  case isTrue h => rw [h]; exact ctr_ctrAdd ..
  case isFalse h => exact ctr_ctrAdd_ne _ _ _ _ h

/-- What a READ answers: LI_CNT_RDATA is the counter, under LI_CNT_RVALID. -/
def readCount (sel : Nat) (l : Leaf) : Leaf := { l with cntRdata := smGet 0 l.counters sel, cntRvalid := true }

theorem counterRead_eq (t sel : Nat) (s : State) : counterRead t sel s = setLeaf t (readCount sel) s := rfl

section
variable (t sel amt : Nat) {s : State}

theorem counterOp_add (hopen : (leafAt s t).stepOpen = true) :
    counterOp t 0 sel amt s = bump t sel amt (setLeaf t noReadData s) := if_pos hopen

theorem counterOp_outside (hclosed : (leafAt s t).stepOpen = false) : counterOp t 0 sel amt s = countOnly 0x20 t s :=
  if_neg (by rw [hclosed]; exact Bool.false_ne_true)

theorem counterOp_read : counterOp t 1 sel amt s = setLeaf t (readCount sel) (setLeaf t noReadData s) := rfl

theorem counterOp_reserved {op : Nat} (hop : 2 ≤ op) : counterOp t op sel amt s = countOnly 0x28 t s := by
  match op, hop with
  | _ + 2, _ => rfl

end

section
variable {s : State} {t : Fin 576} (sel : BitVec 6) (amt : BitVec 16) (hlive : leafLive s t.val = true)
include hlive

theorem exec_counterRead : exec (.counterRead t sel) s = .next (keepQueue s (setLeaf t.val (readCount sel.toNat) s)) :=
  done_onlyIf_true hlive

theorem exec_counterAdd {op : BitVec 2} {u : State} (hop : counterOp t.val op.toNat sel.toNat amt.toNat s = u) :
    exec (.counterAdd t op sel amt) s = .next (keepQueue s u) :=
  hop ▸ done_onlyIf_true hlive

theorem counterRead_answers : ∃ u, exec (.counterRead t sel) s = .next u ∧ u = { s with leaves := u.leaves } ∧
    leafAt u t.val = readCount sel.toNat (leafAt s t.val) ∧ ∀ k, k ≠ t.val → leafAt u k = leafAt s k :=
  ⟨_, exec_counterRead sel hlive, rfl, by simp, fun k hk => by simp [leafAt_setLeaf_ne _ _ _ _ hk]⟩

/-- A READ through the counter port answers as COUNTER_READ does. -/
theorem counterAdd_read : ∃ u, exec (.counterAdd t 1 sel amt) s = .next u ∧ u = { s with leaves := u.leaves } ∧
    leafAt u t.val = readCount sel.toNat (leafAt s t.val) ∧ ∀ k, k ≠ t.val → leafAt u k = leafAt s k :=
  ⟨_, exec_counterAdd sel amt hlive (counterOp_read ..), rfl, by simp [readCount, noReadData],
    fun k hk => by simp [leafAt_setLeaf_ne _ _ _ _ hk]⟩

theorem counterAdd_open (hopen : (leafAt s t.val).stepOpen = true) : ∃ u, exec (.counterAdd t 0 sel amt) s = .next u ∧
    (smGet 0 (leafAt u t.val).counters sel.toNat).toNat =
      min ((smGet 0 (leafAt s t.val).counters sel.toNat).toNat + amt.toNat) 0xFFFFFFFF ∧
    (∀ c, c ≠ sel.toNat → smGet 0 (leafAt u t.val).counters c = smGet 0 (leafAt s t.val).counters c) ∧
    (leafAt u t.val).cntRvalid = false ∧ (∀ k, k ≠ t.val → leafAt u k = leafAt s k) ∧
    u.step = s.step ∧ u.kiln = s.kiln ∧ u.inbox = s.inbox ∧ u.links = s.links := by
  have htouch : Touches bumpTouch s (bump t.val sel.toNat amt.toNat (setLeaf t.val noReadData s)) :=
    (setLeaf_touch (.refl _ _) rfl _ _).trans (bump_touch ..)
  refine ⟨_, exec_counterAdd sel amt hlive (counterOp_add _ _ _ hopen), ?count, fun c hc => ?others, ?valid, fun k hk => ?leaves,
    htouch.step rfl rfl, htouch.kiln rfl rfl, htouch.inbox rfl, htouch.links rfl⟩
  all_goals rw [leafAt_keepQueue]
  case count => rw [count_bump, leafAt_setLeaf, noReadData]
  case others => rw [count_bump_ne _ _ _ hc, leafAt_setLeaf, noReadData]
  case valid => rw [congrArg Leaf.cntRvalid (leafAt_bump ..), leafAt_setLeaf]; rfl
  case leaves => rw [leafAt_bump_ne _ _ _ hk, leafAt_setLeaf_ne _ _ _ _ hk]

/-- An operation that is only counted changes LI_CNT_RVALID and its counter of the segment alone. -/
theorem counterAdd_countOnly {op : BitVec 2} {off : Nat}
    (hop : counterOp t.val op.toNat sel.toNat amt.toNat s = countOnly off t.val s) :
    ∃ u, exec (.counterAdd t op sel amt) s = .next u ∧ u = { s with leaves := u.leaves, ctr := u.ctr } ∧
      leafAt u t.val = noReadData (leafAt s t.val) ∧ (∀ k, k ≠ t.val → leafAt u k = leafAt s k) ∧
      ∀ o, smGet 0 u.ctr o = if o = 0x460000 + 0x40 * segOf t.val + off then min (smGet 0 s.ctr o + 1) ctrMax else smGet 0 s.ctr o :=
  ⟨_, exec_counterAdd sel amt hlive hop, rfl, by simp [countOnly], fun k hk => by simp [countOnly, leafAt_setLeaf_ne _ _ _ _ hk],
    fun o => ctr_countOnly off t.val o s⟩

end

/-- Settles O43: each operation of the port by its code and by whether the step is open. -/
theorem tileCountersAddAndSaturate : Obligations.TileCountersAddAndSaturate := by
  refine fun s t sel amt op => ⟨fun hdead => ⟨done_onlyIf_false hdead, done_onlyIf_false hdead⟩, fun hlive =>
    ⟨counterRead_answers sel hlive, counterAdd_read sel amt hlive, counterAdd_open sel amt hlive, fun hclosed => ?outside,
      fun hop => ?reserved⟩⟩
  case outside => exact counterAdd_countOnly sel amt hlive (counterOp_outside _ _ _ hclosed)
  case reserved => exact counterAdd_countOnly sel amt hlive (counterOp_reserved _ _ _ hop)

end Sys2Proof.Machine
end

section
/-! Firing (R131, R132): one firing of a trigger entry, an induction over the firings of a scan, and what they issue. -/

namespace Sys2Proof.Machine

/-! ### One firing -/

/-- The cords that one firing issues: CORDS_PER_FIRE, 0 read as 1, of those that are left (R131). -/
def perFiring (tr : Trig) : Nat := min (max 1 (trPerFire tr.w1)) (trCount tr.w1 - tr.issued)

/-- The next `n` cords of a trigger entry, in order, as they join the firing queue. -/
def nextFirings (e : PlanEntry) (pos : Nat) (tr : Trig) (n : Nat) : List Firing :=
  (List.range n).map fun i => { slot := tr.slot, plan := eIdx e, cord := trigCord e pos tr.w1 (tr.issued + i), kind := .data }

/-- A trigger entry after one firing (R131, R134). -/
def firedOnce (tr : Trig) : Trig :=
  { tr with threshold := tr.threshold + trStride tr.w0, issued := tr.issued + perFiring tr, fired := true, preheated := false }

theorem firedOnce_issued (tr : Trig) : (firedOnce tr).issued = tr.issued + perFiring tr := rfl

/-- A trigger entry that is left disarmed by its firing: its cords are issued, it has no STRIDE, or THRESHOLD is past 0xFFFF_FFFF (R131). -/
def lastFiring (tr : Trig) : Bool :=
  decide (trCount tr.w1 ≤ (firedOnce tr).issued) || trStride tr.w0 == 0 || decide (0xFFFFFFFF < (firedOnce tr).threshold)

section
variable (e : PlanEntry) (pos v fuel : Nat) {tr : Trig} (out : List Firing)

theorem fireLoop_quiet (h : tr.armed = false ∨ v < tr.threshold) : fireLoop e pos v fuel tr out = (tr, out, false) := by
  cases fuel with
  | zero => rfl
  | succ fuel =>
    refine if_neg ?_
    rw [Bool.and_eq_true, decide_eq_true_eq]
    rintro ⟨harmed, hreached⟩
    obtain hoff | hbelow := h
    · exact Bool.false_ne_true (hoff.symm.trans harmed)
    · exact Nat.not_le.mpr hbelow hreached

theorem fireLoop_reached (harmed : tr.armed = true) (hreached : tr.threshold ≤ v) :
    fireLoop e pos v (fuel + 1) tr out =
      if lastFiring tr then
        ({ firedOnce tr with armed := false }, out ++ nextFirings e pos tr (perFiring tr), decide (0xFFFFFFFF < (firedOnce tr).threshold))
      else fireLoop e pos v fuel (firedOnce tr) (out ++ nextFirings e pos tr (perFiring tr)) :=
  if_pos (by simp [harmed, hreached])

theorem fireLoop_append (tr : Trig) : fireLoop e pos v fuel tr out =
    ((fireLoop e pos v fuel tr []).1, out ++ (fireLoop e pos v fuel tr []).2.1, (fireLoop e pos v fuel tr []).2.2) := by
  induction fuel generalizing tr out with
  | zero => simp [fireLoop]
  | succ fuel ih =>
    by_cases hquiet : tr.armed = false ∨ v < tr.threshold
    · simp [fireLoop_quiet e pos v _ _ hquiet]
    · obtain ⟨harmed, hreached⟩ := not_or.mp hquiet
      have harmed := eq_true_of_ne_false harmed
      have hreached := Nat.not_lt.mp hreached
      rw [fireLoop_reached e pos v fuel out harmed hreached, fireLoop_reached e pos v fuel [] harmed hreached]
      split
      · rfl
      · rw [ih, ih ([] ++ _)]
        simp

end

/-! ### The firings of a scan, one after another -/

section
variable {e : PlanEntry} {pos v : Nat}

/-- What holds of an entry that does not fire, or has no fuel left, of one that fires for the last time, and is kept by a firing before
others, holds of the firings of a scan. -/
theorem fireLoop_induction {P : Nat → Trig → Trig × List Firing → Prop}
    (stop : ∀ fuel tr, fuel = 0 ∨ tr.armed = false ∨ v < tr.threshold → P fuel tr (tr, []))
    (last : ∀ fuel tr, P (fuel + 1) tr ({ firedOnce tr with armed := false }, nextFirings e pos tr (perFiring tr)))
    (more : ∀ fuel tr r, (firedOnce tr).issued < trCount tr.w1 → P fuel (firedOnce tr) r →
      P (fuel + 1) tr (r.1, nextFirings e pos tr (perFiring tr) ++ r.2))
    (fuel : Nat) (tr : Trig) : P fuel tr ((fireLoop e pos v fuel tr []).1, (fireLoop e pos v fuel tr []).2.1) := by
  induction fuel generalizing tr with
  | zero => exact stop 0 tr (.inl rfl)
  | succ fuel ih =>
    by_cases hquiet : tr.armed = false ∨ v < tr.threshold
    · rw [fireLoop_quiet e pos v _ _ hquiet]
      exact stop _ tr (.inr hquiet)
    · obtain ⟨harmed, hreached⟩ := not_or.mp hquiet
      rw [fireLoop_reached e pos v fuel [] (eq_true_of_ne_false harmed) (Nat.not_lt.mp hreached)]
      split
      case isTrue => exact last fuel tr
      case isFalse hlast =>
        rw [fireLoop_append]
        refine more fuel tr (_, _) ?_ (ih _)
        simp only [lastFiring, Bool.or_eq_true, decide_eq_true_eq, not_or, Nat.not_le] at hlast
        exact hlast.1.1

variable (e pos v) (fuel : Nat) (tr : Trig)

theorem fireLoop_keeps_entry : (fireLoop e pos v fuel tr []).1.w0 = tr.w0 ∧ (fireLoop e pos v fuel tr []).1.w1 = tr.w1 ∧
    (fireLoop e pos v fuel tr []).1.slot = tr.slot :=
  fireLoop_induction (P := fun _ tr r => r.1.w0 = tr.w0 ∧ r.1.w1 = tr.w1 ∧ r.1.slot = tr.slot)
    (fun _ _ _ => ⟨rfl, rfl, rfl⟩) (fun _ _ => ⟨rfl, rfl, rfl⟩) (fun _ _ _ _ h => h) fuel tr

theorem issued_firedOnce_le {tr : Trig} (h : tr.issued ≤ trCount tr.w1) : (firedOnce tr).issued ≤ trCount tr.w1 := by
  have : perFiring tr ≤ trCount tr.w1 - tr.issued := Nat.min_le_right ..
  rw [firedOnce_issued]
  omega

/-- An entry issues no more cords than its count (R131). -/
theorem fireLoop_issued_le : tr.issued ≤ trCount tr.w1 → (fireLoop e pos v fuel tr []).1.issued ≤ trCount tr.w1 :=
  fireLoop_induction (P := fun _ tr r => tr.issued ≤ trCount tr.w1 → r.1.issued ≤ trCount tr.w1)
    (fun _ _ _ h => h) (fun _ _ => issued_firedOnce_le) (fun _ _ _ _ ih h => ih (issued_firedOnce_le h)) fuel tr

theorem nextFirings_add (m n : Nat) :
    nextFirings e pos tr (m + n) = nextFirings e pos tr m ++ nextFirings e pos { tr with issued := tr.issued + m } n := by
  simp [nextFirings, List.range_add, Nat.add_assoc]

/-- The cords that join the firing queue are the next ones of the entry, each once and in order (R132). -/
theorem fireLoop_firings : tr.issued ≤ (fireLoop e pos v fuel tr []).1.issued ∧
    (fireLoop e pos v fuel tr []).2.1 = nextFirings e pos tr ((fireLoop e pos v fuel tr []).1.issued - tr.issued) := by
  refine fireLoop_induction (P := fun _ tr r => tr.issued ≤ r.1.issued ∧ r.2 = nextFirings e pos tr (r.1.issued - tr.issued))
    ?stop ?last ?more fuel tr
  case stop => exact fun _ tr _ => ⟨Nat.le_refl _, by rw [Nat.sub_self]; rfl⟩
  case last => exact fun _ tr => ⟨Nat.le_add_right .., by simp [firedOnce_issued]⟩
  case more =>
    intro _ tr r _ ⟨hle, hr⟩
    rw [firedOnce_issued] at hle hr
    have hsum : r.1.issued - tr.issued = perFiring tr + (r.1.issued - (tr.issued + perFiring tr)) := by omega
    refine ⟨Nat.le_trans (Nat.le_add_right ..) hle, ?_⟩
    dsimp only
    rw [hsum, nextFirings_add, hr]
    rfl

/-- With fuel for the cords that are left, the entry is left disarmed or waiting for a threshold that is not reached (R131). -/
theorem fireLoop_waits : tr.issued < trCount tr.w1 → trCount tr.w1 ≤ tr.issued + fuel →
    (fireLoop e pos v fuel tr []).1.armed = true → v < (fireLoop e pos v fuel tr []).1.threshold := by
  refine fireLoop_induction
    (P := fun fuel tr r => tr.issued < trCount tr.w1 → trCount tr.w1 ≤ tr.issued + fuel → r.1.armed = true → v < r.1.threshold)
    ?stop ?last ?more fuel tr
  case stop =>
    rintro fuel tr (rfl | hquiet | hbelow) hleft hfuel harmed
    · omega
    · exact absurd (hquiet.symm.trans harmed) Bool.false_ne_true
    · exact hbelow
  case last => exact fun _ _ _ _ harmed => absurd harmed Bool.false_ne_true
  case more =>
    intro fuel tr r hmore ih hleft hfuel
    have hone : 1 ≤ perFiring tr := by
      unfold perFiring
      omega
    refine ih hmore ?_
    have hkeeps : trCount (firedOnce tr).w1 = trCount tr.w1 := rfl
    rw [hkeeps, firedOnce_issued]
    omega

end

/-- Settles O44: an entry that is not reached by the equation of the loop, what it issues by induction over its firings. -/
theorem triggersIssueTheirCordsOnce : Obligations.TriggersIssueTheirCordsOnce := by
  intro e pos v tr fuel hcount
  obtain ⟨hmono, hfirings⟩ := fireLoop_firings e pos v fuel tr
  obtain ⟨hw0, hw1, hslot⟩ := fireLoop_keeps_entry e pos v fuel tr
  refine ⟨fireLoop_issued_le e pos v fuel tr hcount, hmono, ?cords, hw0, hw1, hslot, ?queue, fun hquiet => ?quiet,
    fireLoop_waits e pos v fuel tr⟩
  case cords => rw [hfirings, nextFirings, List.map_map]; rfl
  case queue =>
    rw [hfirings]
    exact List.forall_mem_map.mpr fun _ _ => ⟨rfl, rfl, rfl⟩
  case quiet =>
    rw [fireLoop_quiet e pos v fuel [] hquiet]
    exact ⟨rfl, rfl⟩

end Sys2Proof.Machine
end

section
/-! Closing and offering at the nodes (R191, R193, R196): the parts of the state that they may change, of which the leaves are none. -/

namespace Sys2Proof.Machine

/-- The parts that the closing of an index and the offers that follow it may change. -/
def closeTouch : Touch :=
  { log := true, exc := true, free := true, ctr := true, step := true, kiln := true, links := true, inbox := true, fabric := true,
    nodes := true }

section
variable {s u : State} (hs : Touches closeTouch s u)
include hs

theorem giveBuf_touch (b : Nat) : Touches closeTouch s (giveBuf b u) := hs.kilnUpd rfl _

theorem modNode_touch (plan : Nat) (n : NodeId) (f : NodeInst → NodeInst) : Touches closeTouch s (modNode plan n f u) := hs.kilnUpd rfl _

theorem freeOpen_touch (x : NodeInst) (c : Nat) : Touches closeTouch s (freeOpen x c u) := by
  have hfreed := forEach_touch hs (x.opens.filter (fun o => o.idx == c)) (fun o t => forEach o.ops t (fun p u => giveBuf p.buf u))
    fun o _ hv => forEach_touch hv o.ops _ fun p _ hv => giveBuf_touch hv p.buf
  unfold freeOpen
  dsimp only
  split
  · exact hfreed
  · exact forEach_touch hfreed _ _ fun r _ hv => giveBuf_touch hv r.2

theorem advertise_touch (x : NodeInst) (lowest : Nat) : Touches closeTouch s (advertise x lowest u) := by
  unfold advertise
  split
  · exact hs
  · split
    · exact hs
    · exact forEach_touch hs _ _ fun _ _ hv => ctrlTo_touch hv rfl _ _ _

theorem closeIdx_touch (plan : Nat) (n : NodeId) (c : Nat) : Touches closeTouch s (closeIdx plan n c u) := by
  unfold closeIdx
  split
  · exact hs
  · next x _ =>
    split
    · exact hs
    · have hclosed := fun f => (modNode_touch (freeOpen_touch hs x c) plan n f).kilnUpd rfl
      exact iteInduction (fun _ => hclosed _ _) fun _ => advertise_touch (hclosed _ _) _ _

theorem tryClose_touch (plan : Nat) (n : NodeId) (c : Nat) : Touches closeTouch s (tryClose plan n c u) := by
  unfold tryClose
  split
  · split
    · exact hs
    · exact iteInduction (fun _ => closeIdx_touch hs plan n c) fun _ => hs
  · exact hs

theorem closePassHold_touch (e : PlanEntry) : Touches closeTouch s (closePassHold e u) :=
  iteInduction (fun _ => hs.kilnUpd rfl _) fun _ => hs

theorem markSent_touch (plan : Nat) (n : NodeId) (c : Nat) (out : Cord) (here : Bool) :
    Touches closeTouch s (markSent plan n c out here u) :=
  tryClose_touch (modNode_touch (modNode_touch hs plan n _) plan n _) plan n c

theorem sendUp_touch {x : NodeInst} {g : GroupDef} {c : Nat} {out : Cord} {t : State} {here : Bool}
    (hsent : sendUp x g c out u = some (t, here)) : Touches closeTouch s t := by
  have hrings : ∀ src dst a, a.buf = none → Touches closeTouch s (toStops src dst 0 a [] u) :=
    fun src dst a hbuf => toStops_touch hs rfl src dst 0 a [] (.inr rfl) (.inr hbuf)
  unfold sendUp at hsent
  dsimp only at hsent
  split at hsent
  case isTrue =>
    split at hsent
    · exact nomatch hsent
    · split at hsent
      · cases hsent; exact hrings _ _ _ rfl
      · exact nomatch hsent
  case isFalse =>
    split at hsent
    · cases hsent; exact hrings _ _ _ rfl
    · split at hsent
      · exact nomatch hsent
      · split at hsent
        · split at hsent
          · exact nomatch hsent
          · split at hsent
            · cases hsent; exact deliver_touch hs rfl _
            · exact nomatch hsent
        · split at hsent
          · cases hsent; exact sendInst_touch hs rfl _ _ _ _ _ _
          · exact nomatch hsent

theorem offerUp_touch (plan : Nat) (n : NodeId) (c : Nat) : Touches closeTouch s (offerUp plan n c u) := by
  unfold offerUp
  split
  · split
    · split
      · split
        · next hsent => exact markSent_touch (sendUp_touch hs hsent) plan n c _ _
        · exact iteInduction (fun _ => leadEvent_touch hs rfl rfl rfl plan c _) fun _ => hs
      · exact hs
    · exact hs
  · exact hs

theorem flushPlan_touch (plan : Nat) : Touches closeTouch s (flushPlan plan u) :=
  forEach_touch hs _ _ fun x _ hv => forEach_touch hv _ _ fun o _ hv => offerUp_touch hv plan x.node o.idx

end

end Sys2Proof.Machine
end

section
/-! Writing to a leaf (R126, R148 to R154, R175, R369): the landing that begins, the beats that are granted, and the held cords that leave. -/

namespace Sys2Proof.Machine

/-! ### CORD_LAND (R148, R149) -/

/-- A landing has begun: its cord has left the queue, and its beats wait for their grants. -/
def beganLanding (q : List LandItem) (it : LandItem) (beats : List WrBeat) (l : Leaf) : Leaf :=
  { l with landQ := q, writing := some { slot := it.slot, cord := some it.cord, beats := beats, stalled := false, void := false } }

section
variable {s : State} {t : Nat}

theorem startLanding_idle (hidle : (leafAt s t).writing.isSome = true ∨ (leafAt s t).recQ ≠ [] ∨ (leafAt s t).landQ = []) :
    startLanding t s = s := by
  unfold startLanding
  dsimp only
  split
  case h_2 => rfl
  case h_1 hfree hrec hturn =>
    obtain hbusy | hrecs | hempty := hidle
    · rw [hfree] at hbusy
      exact nomatch hbusy
    · exact absurd hrec hrecs
    · rw [hempty] at hturn
      exact nomatch hturn

theorem startLanding_head {it : LandItem} {q : List LandItem} {x : Land} {e : PlanEntry} (hfree : (leafAt s t).writing = none)
    (hrec : (leafAt s t).recQ = []) (hland : (leafAt s t).landQ = it :: q)
    (hentry : (leafAt s t).lands.find? (fun y => y.slot == it.slot) = some x) (hturn : inTurn s t x it = true)
    (hplan : entryAt s (cPlan it.cord) = some e) :
    startLanding t s = setLeaf t (beganLanding q it (landingBeats s e x t it.cord)) (noteProgress (progKey 2 0 t) s) := by
  simp only [startLanding, hfree, hrec, hland, List.find?_cons, hentry, Option.elim_some, hturn, hplan, List.erase_cons_head]
  rfl

end

section
variable {s : State} {t : Fin 576} (hlive : leafLive s t.val = true)
include hlive

theorem exec_cordLand : exec (.cordLand t) s = .next (keepQueue s (startLanding t.val s)) := done_onlyIf_true hlive

theorem cordLand_idle
    (hidle : (leafAt s t.val).writing.isSome = true ∨ (leafAt s t.val).recQ ≠ [] ∨ (leafAt s t.val).landQ = []) :
    exec (.cordLand t) s = .next s := by
  rw [exec_cordLand hlive, startLanding_idle hidle, keepQueue_self]

theorem cordLand_begins {it : LandItem} {q : List LandItem} {x : Land} {e : PlanEntry} (hfree : (leafAt s t.val).writing = none)
    (hrec : (leafAt s t.val).recQ = []) (hland : (leafAt s t.val).landQ = it :: q)
    (hentry : (leafAt s t.val).lands.find? (fun y => y.slot == it.slot) = some x) (hturn : inTurn s t.val x it = true)
    (hplan : entryAt s (cPlan it.cord) = some e) :
    ∃ u, exec (.cordLand t) s = .next u ∧ u = { timed s u with leaves := u.leaves } ∧ (∀ k, k ≠ t.val → leafAt u k = leafAt s k) ∧
      leafAt u t.val = beganLanding q it (landingBeats s e x t.val it.cord) (leafAt s t.val) := by
  rw [exec_cordLand hlive, startLanding_head hfree hrec hland hentry hturn hplan]
  exact ⟨_, rfl, rfl, fun k hk => by simp [leafAt_setLeaf_ne _ _ _ _ hk], by simp⟩

end

/-! ### WRITE_GRANT (R126, R154, R175, R369) -/

/-- A write is over, and the next record that waits begins. -/
def endWriting (l : Leaf) : Leaf := nextRecord { l with writing := none }

/-- The beats of a write that are left. -/
def leftToWrite (w : WriteCtx) (beats : List WrBeat) (l : Leaf) : Leaf := { l with writing := some { w with beats := beats } }

/-- The end of a write moves nothing but the write and the queue of records. -/
theorem endWriting_keeps (l : Leaf) : endWriting l = { l with writing := (endWriting l).writing, recQ := (endWriting l).recQ } := by
  unfold endWriting nextRecord
  split <;> rfl

@[simp] theorem endWriting_counters (l : Leaf) : (endWriting l).counters = l.counters := by rw [endWriting_keeps]
@[simp] theorem endWriting_stepOpen (l : Leaf) : (endWriting l).stepOpen = l.stepOpen := by rw [endWriting_keeps]
@[simp] theorem endWriting_sealing (l : Leaf) : (endWriting l).sealing = l.sealing := by rw [endWriting_keeps]
@[simp] theorem endWriting_lands (l : Leaf) : (endWriting l).lands = l.lands := by rw [endWriting_keeps]

@[simp] theorem stepRecCounter_setLeaf (t : Nat) (f : Leaf → Leaf) (s : State) : stepRecCounter (setLeaf t f s) = stepRecCounter s := rfl
@[simp] theorem stepRecCounter_noteProgress (k : Nat) (s : State) : stepRecCounter (noteProgress k s) = stepRecCounter s := rfl

/-- The state in which a beat of a leaf has been granted: its write has moved on, and the timer of the leaf is restarted (R403). -/
def granted (t : Nat) (f : Leaf → Leaf) (s : State) : State := noteProgress (progKey 2 0 t) (setLeaf t f s)

section
variable (t : Nat) (f : Leaf → Leaf) (s : State)

@[simp] theorem leafAt_granted : leafAt (granted t f s) t = f (leafAt s t) := by simp [granted]

theorem leafAt_granted_ne {k : Nat} (h : k ≠ t) : leafAt (granted t f s) k = leafAt s k := by simp [granted, leafAt_setLeaf_ne _ _ _ _ h]

@[simp] theorem stepRecCounter_granted : stepRecCounter (granted t f s) = stepRecCounter s := rfl

end

/-- A record of the leaf's own has been written: the state once STEP_REC_COUNTER has counted it (R175, R369). -/
def recordCounted (t : Nat) (s : State) : State := bump t (stepRecCounter s) 1 (granted t endWriting s)

theorem recordCounted_counts (t : Nat) (s : State) :
    (smGet 0 (leafAt (recordCounted t s) t).counters (stepRecCounter s)).toNat =
      min ((smGet 0 (leafAt s t).counters (stepRecCounter s)).toNat + 1) 0xFFFFFFFF ∧
    (leafAt (recordCounted t s) t).writing = (endWriting (leafAt s t)).writing ∧
    (leafAt (recordCounted t s) t).stepOpen = (leafAt s t).stepOpen ∧
    (leafAt (recordCounted t s) t).sealing = (leafAt s t).sealing ∧
    ∀ k, k ≠ t → leafAt (recordCounted t s) k = leafAt s k := by
  have hleaf := leafAt_bump t (stepRecCounter s) 1 (granted t endWriting s)
  unfold recordCounted
  refine ⟨by rw [count_bump]; simp, ?writing, ?stepOpen, ?sealing, fun k hk => ?other⟩
  case writing => rw [congrArg Leaf.writing hleaf]; simp [addCount]
  case stepOpen => rw [congrArg Leaf.stepOpen hleaf]; simp [addCount]
  case sealing => rw [congrArg Leaf.sealing hleaf]; simp [addCount]
  case other => rw [leafAt_bump_ne _ _ _ hk, leafAt_granted_ne _ _ _ hk]

/-- LI_STEP_OPEN falls with the seal record, unless the next step has opened since (R369; log 82). -/
def sealWritten (l : Leaf) : Leaf := { l with stepOpen := l.stepOpen && !l.sealing, sealing := false }

section
variable {s : State} {t : Nat} {w : WriteCtx} (hw : (leafAt s t).writing = some w)
include hw

theorem writeGrant_last {b : WrBeat} (hbeats : w.beats = [b]) : writeGrant t s = beatGranted t w b true (granted t endWriting s) := by
  simp only [writeGrant, hw, hbeats]
  rfl

theorem writeGrant_more {b b2 : WrBeat} {bs : List WrBeat} (hbeats : w.beats = b :: b2 :: bs) :
    writeGrant t s = beatGranted t w b false (granted t (leftToWrite w (b2 :: bs)) s) := by
  simp only [writeGrant, hw, hbeats]
  rfl

end

section
variable {s : State} {t : Nat} {w : WriteCtx} {b : WrBeat} {last : Bool}

/-- Nothing follows the grant of a row, or of a beat of a landing given up (R126). -/
theorem beatGranted_silent (h : b.kind = .row ∨ w.void = true) : beatGranted t w b last s = s := by
  unfold beatGranted
  split
  · rfl
  · next hvoid => rw [h.resolve_right hvoid]

variable (hvoid : w.void = false)
include hvoid

theorem beatGranted_record {c : Cord} (hkind : b.kind = .record) (hcord : w.cord = some c) :
    beatGranted t w b last s = cordLanded t w.slot c s := by
  simp [beatGranted, hvoid, hkind, hcord, withSome]

theorem beatGranted_stepRec (hkind : b.kind = .stepRec) : beatGranted t w b last (granted t endWriting s) = recordCounted t s := by
  simp [beatGranted, hvoid, hkind, recordCounted]

theorem beatGranted_sealRec (hkind : b.kind = .sealRec) :
    beatGranted t w b last (granted t endWriting s) = setLeaf t sealWritten (recordCounted t s) := by
  simp only [beatGranted, hvoid, hkind, stepRecCounter_granted, recordCounted]
  rfl

end

/-! ### A cord that has landed (R154, R155) -/

/-- Beside the tally and the COMPLETION counter, what follows a landing changes no leaf. -/
theorem leafAt_cordLanded {s : State} {t slot : Nat} {c : Cord} {x : Land}
    (hentry : (leafAt s t).lands.find? (fun y => y.slot == slot) = some x) (k : Nat) :
    leafAt (cordLanded t slot c s) k = leafAt (bump t (leCompletion x.w0) 1 (setLeaf t (tallyLand slot (cIdx c) s.time.tick) s)) k := by
  unfold cordLanded
  simp only [hentry]
  split
  · rfl
  · split
    · exact (closePassHold_touch (.refl _ _) _).leafAt_eq rfl k
    · split
      · exact leafAt_sendToDie ..
      · exact (flushPlan_touch (tryClose_touch (.refl _ _) _ _ _) _).leafAt_eq rfl k

section
variable {s : State} {t : Fin 576} (hlive : leafLive s t.val = true)
include hlive

theorem exec_writeGrant : exec (.writeGrant t) s = .next (keepQueue s (writeGrant t.val s)) := done_onlyIf_true hlive

theorem writeGrant_free (hfree : (leafAt s t.val).writing = none) : exec (.writeGrant t) s = .next s := by
  rw [exec_writeGrant hlive, writeGrant, hfree]
  rfl

variable {w : WriteCtx} (hw : (leafAt s t.val).writing = some w)
include hw

theorem writeGrant_silent {b b2 : WrBeat} {bs : List WrBeat} (hbeats : w.beats = b :: b2 :: bs)
    (hsilent : b.kind = .row ∨ w.void = true) : ∃ u, exec (.writeGrant t) s = .next u ∧
      u = { timed s u with leaves := u.leaves } ∧ leafAt u t.val = leftToWrite w (b2 :: bs) (leafAt s t.val) ∧
      ∀ k, k ≠ t.val → leafAt u k = leafAt s k := by
  rw [exec_writeGrant hlive, writeGrant_more hw hbeats, beatGranted_silent hsilent]
  exact ⟨_, rfl, rfl, by simp, fun k hk => by simp [leafAt_granted_ne _ _ _ hk]⟩

variable {b : WrBeat} (hbeats : w.beats = [b])
include hbeats

theorem writeGrant_givenUp (hvoid : w.void = true) : ∃ u, exec (.writeGrant t) s = .next u ∧
    u = { timed s u with leaves := u.leaves } ∧ leafAt u t.val = endWriting (leafAt s t.val) ∧
    ∀ k, k ≠ t.val → leafAt u k = leafAt s k := by
  rw [exec_writeGrant hlive, writeGrant_last hw hbeats, beatGranted_silent (.inr hvoid)]
  exact ⟨_, rfl, rfl, by simp, fun k hk => by simp [leafAt_granted_ne _ _ _ hk]⟩

variable (hvoid : w.void = false)
include hvoid

theorem writeGrant_record {c : Cord} {x : Land} (hkind : b.kind = .record) (hcord : w.cord = some c)
    (hentry : (leafAt s t.val).lands.find? (fun y => y.slot == w.slot) = some x) :
    ∃ u, exec (.writeGrant t) s = .next u ∧ (leafAt u t.val).writing = (endWriting (leafAt s t.val)).writing ∧
      (smGet 0 (leafAt u t.val).counters (leCompletion x.w0)).toNat =
        min ((smGet 0 (leafAt s t.val).counters (leCompletion x.w0)).toNat + 1) 0xFFFFFFFF := by
  have hlands : (leafAt (granted t.val endWriting s) t.val).lands.find? (fun y => y.slot == w.slot) = some x := by simpa using hentry
  rw [exec_writeGrant hlive, writeGrant_last hw hbeats, beatGranted_record hvoid hkind hcord]
  refine ⟨_, rfl, ?writing, ?count⟩
  all_goals rw [leafAt_keepQueue, leafAt_cordLanded hlands]
  case writing => rw [congrArg Leaf.writing (leafAt_bump ..)]; simp [addCount, tallyLand]
  case count => rw [count_bump]; simp [tallyLand]

theorem writeGrant_ownRecord (hkind : b.kind = .stepRec ∨ b.kind = .sealRec) : ∃ u, exec (.writeGrant t) s = .next u ∧
    (smGet 0 (leafAt u t.val).counters (stepRecCounter s)).toNat =
      min ((smGet 0 (leafAt s t.val).counters (stepRecCounter s)).toNat + 1) 0xFFFFFFFF ∧
    (leafAt u t.val).writing = (endWriting (leafAt s t.val)).writing ∧
    (leafAt u t.val).stepOpen = ((leafAt s t.val).stepOpen && (decide (b.kind = .stepRec) || !(leafAt s t.val).sealing)) ∧
    ∀ k, k ≠ t.val → leafAt u k = leafAt s k := by
  obtain ⟨hcount, hwriting, hopen, hsealing, hother⟩ := recordCounted_counts t.val s
  rw [exec_writeGrant hlive, writeGrant_last hw hbeats]
  obtain hstep | hseal := hkind
  · rw [beatGranted_stepRec hvoid hstep, hstep]
    refine ⟨_, rfl, ?_⟩
    simp only [leafAt_keepQueue]
    exact ⟨hcount, hwriting, by simpa using hopen, hother⟩
  · rw [beatGranted_sealRec hvoid hseal, hseal]
    refine ⟨_, rfl, ?_⟩
    simp only [leafAt_keepQueue, leafAt_setLeaf, sealWritten]
    exact ⟨hcount, hwriting, by simp [hopen, hsealing], fun k hk => (leafAt_setLeaf_ne _ _ _ _ hk).trans (hother k hk)⟩

end

/-! ### LANDING_STALL (R151) -/

section
variable {s : State} {t : Fin 576} (hlive : leafLive s t.val = true)
include hlive

theorem exec_landingStall : exec (.landingStall t) s = .next (keepQueue s (landingStall t.val s)) := done_onlyIf_true hlive

theorem landingStall_free (hfree : (leafAt s t.val).writing = none) : exec (.landingStall t) s = .next s := by
  rw [exec_landingStall hlive, landingStall, hfree]
  rfl

variable {w : WriteCtx} (hw : (leafAt s t.val).writing = some w)
include hw

theorem landingStall_silent (hsilent : w.cord = none ∨ w.stalled = true ∨ w.void = true) : exec (.landingStall t) s = .next s := by
  have hsame : landingStall t.val s = s := by
    cases hcord : w.cord with
    | none => simp [landingStall, hw, hcord]
    | some c =>
      have hskip : (w.stalled || w.void) = true := by simpa [hcord] using hsilent
      simp [landingStall, hw, hcord, hskip]
  rw [exec_landingStall hlive, hsame, keepQueue_self]

theorem landingStall_logged {c : Cord} (hcord : w.cord = some c) (hfirst : w.stalled = false) (hvoid : w.void = false) :
    ∃ u, exec (.landingStall t) s = .next u ∧
      leafAt u t.val = { leafAt s t.val with writing := some { w with stalled := true } } ∧
      (∀ k, k ≠ t.val → leafAt u k = leafAt s k) ∧ u.step.state = s.step.state ∧
      smGet 0 u.ctr (0x460000 + 0x40 * segOf t.val + 0x18) =
        min (smGet 0 s.ctr (0x460000 + 0x40 * segOf t.val + 0x18) + 1) ctrMax := by
  have hstall : landingStall t.val s = logEv 0x0702 (unitSeg (segOf t)) (argTP (tileIdx s t.val) (cPlan c)) (cIdx c)
      (segCtr (segOf t) 0x18 1 (setLeaf t (fun l => { l with writing := some { w with stalled := true } }) s)) := by
    simp [landingStall, hw, hcord, hfirst, hvoid]
  rw [exec_landingStall hlive, hstall]
  refine ⟨_, rfl, by simp, fun k hk => by simp [leafAt_setLeaf_ne _ _ _ _ hk], by simp [segCtr], ?_⟩
  rw [keepQueue_ctr, logEv_ctr]
  exact ctr_ctrAdd ..

end

/-! ### HELD_CORD_RELEASE (R152) -/

/-- The state of which only the rings and the use of the cord buffers have changed, with every item of the rings still there. -/
def addedToRings (s u : State) : Prop := ∃ f used, u = { s with fabric := f, kiln := { s.kiln with used := used } } ∧
  ∀ it ∈ s.fabric.items, it ∈ f.items

theorem addedToRings.refl (s : State) : addedToRings s s := ⟨s.fabric, s.kiln.used, rfl, fun _ h => h⟩

theorem addedToRings.trans {s u v : State} (h : addedToRings s u) (h' : addedToRings u v) : addedToRings s v := by
  obtain ⟨_, _, rfl, hkept⟩ := h
  obtain ⟨f, used, rfl, hkept'⟩ := h'
  exact ⟨f, used, rfl, fun it hit => hkept' it (hkept it hit)⟩

theorem addedToRings.items {s u : State} (h : addedToRings s u) {it : RingItem} (hit : it ∈ s.fabric.items) : it ∈ u.fabric.items := by
  obtain ⟨_, _, rfl, hkept⟩ := h
  exact hkept it hit

theorem addedToRings_giveBuf (b : Nat) (s : State) : addedToRings s (giveBuf b s) := ⟨_, _, rfl, fun _ h => h⟩

theorem addedToRings_queueItem (again : Bool) (here : Nat) (ds : List Nat) (vc : Nat) (a : Arrival) (lv : List (Nat × Nat)) (s : State) :
    addedToRings s (queueItem again here ds vc a lv s) := ⟨_, _, rfl, fun _ h => List.mem_append_left _ h⟩

/-- A kiln unit and a segment never share a stop of the rings. -/
theorem stopOf_unitKiln_ne_unitSeg : ∀ b < 8, ∀ g < 16, stopOf (unitSeg g) ≠ stopOf (unitKiln b) := by decide

/-- What goes to one unit of another stop waits at its own for the rings. -/
theorem toStops_apart {src dst : Nat} (happart : stopOf dst ≠ stopOf src) (vc : Nat) (a : Arrival) (lv : List (Nat × Nat)) (s : State) :
    toStops src [dst] vc a lv s = queueItem false (stopOf src) [stopOf dst] vc a lv s := by
  simp [toStops, onRings, sortedSet, insertNat, happart, Ne.symm happart]

/-- One held cord leaves kiln memory by the stop of its bank's kiln unit; a PASS cord gives its buffer back (R152, R192). -/
def sendHeld (t e : Nat) (h : LandItem) (s : State) : State :=
  toStops (unitKiln ((h.buf.map (· / 384)).getD 0)) [unitSeg (segOf t)] (landVc (cKind h.cord))
    { src := .self 0, vc := landVc (cKind h.cord), body := .cord h.cord } [(t, e)]
    (if cKind h.cord = 7 then withSome h.buf s giveBuf else s)

/-- An item on the rings brings a held cord to its landing entry. -/
def bringsHeld (t e : Nat) (h : LandItem) (it : RingItem) : Prop := it.item.body = .cord h.cord ∧ it.leaves = [(t, e)]

section
variable {t : Nat} (e : Nat) (ht : t < 576)
include ht

theorem sendHeld_added {h : LandItem} (hbuf : ∀ b ∈ h.buf.toList, b < 3072) (s : State) :
    addedToRings s (sendHeld t e h s) ∧ ∃ it ∈ (sendHeld t e h s).fabric.items, bringsHeld t e h it := by
  have hbank : (h.buf.map (· / 384)).getD 0 < 8 := by
    cases hb : h.buf with
    | none => simp
    | some b =>
      have := hbuf b (by simp [hb])
      simp only [Option.map_some, Option.getD_some]
      omega
  have hseg : segOf t < 16 := by
    rw [segOf]
    omega
  have hgiven : addedToRings s (if cKind h.cord = 7 then withSome h.buf s giveBuf else s) := by
    split
    · cases h.buf with
      | none => exact .refl s
      | some b => exact addedToRings_giveBuf b s
    · exact .refl s
  rw [sendHeld, toStops_apart (stopOf_unitKiln_ne_unitSeg _ hbank _ hseg)]
  exact ⟨hgiven.trans (addedToRings_queueItem ..), _, List.mem_append_right _ (List.mem_singleton_self _), rfl, rfl⟩

theorem forEach_sendHeld_added {hs : List LandItem} (hbuf : ∀ h ∈ hs, ∀ b ∈ h.buf.toList, b < 3072) (s : State) :
    addedToRings s (forEach hs s (sendHeld t e)) ∧ ∀ h ∈ hs, ∃ it ∈ (forEach hs s (sendHeld t e)).fabric.items, bringsHeld t e h it := by
  induction hs generalizing s with
  | nil => exact ⟨.refl s, fun _ h => nomatch h⟩
  | cons h hs ih =>
    obtain ⟨hhead, htail⟩ := List.forall_mem_cons.mp hbuf
    obtain ⟨hadded, it, hit, hbrings⟩ := sendHeld_added e ht hhead s
    obtain ⟨hrest, hothers⟩ := ih htail (sendHeld t e h s)
    exact ⟨hadded.trans hrest, List.forall_mem_cons.mpr ⟨⟨it, hrest.items hit, hbrings⟩, hothers⟩⟩

end

theorem mem_insertSorted (n m : Nat) (l : List Nat) : m ∈ insertSorted n l ↔ m = n ∨ m ∈ l := by
  induction l with
  | nil => simp [insertSorted]
  | cons a l ih =>
    unfold insertSorted
    split
    · simp
    · simp [ih, or_left_comm]

@[simp] theorem mem_sortNat (m : Nat) (l : List Nat) : m ∈ sortNat l ↔ m ∈ l := by
  induction l with
  | nil => rfl
  | cons a l ih => rw [List.mem_cons, ← ih]; exact mem_insertSorted ..

/-- Held cords in ascending cord index, the order in which they leave (R152). -/
def releaseOrder (mine : List LandItem) : List LandItem :=
  (sortNat (mine.map fun h => cIdx h.cord)).eraseDups.flatMap fun c => mine.filter fun h => cIdx h.cord == c

/-- Each of them leaves, and no other. -/
theorem mem_releaseOrder (h : LandItem) (mine : List LandItem) : h ∈ releaseOrder mine ↔ h ∈ mine := by
  simp only [releaseOrder, List.mem_flatMap, List.mem_eraseDups, mem_sortNat, List.mem_map, List.mem_filter, beq_iff_eq]
  exact ⟨fun ⟨_, _, hmine, _⟩ => hmine, fun hmine => ⟨cIdx h.cord, ⟨h, hmine, rfl⟩, hmine, rfl⟩⟩

/-- The permit of a landing entry is visible to its holding buffer, which keeps none of its cords. -/
def released (e : Nat) (l : Leaf) : Leaf :=
  { l with lands := l.lands.map (fun z => if z.slot = e then { z with visible := true } else z), held := l.held.filter (fun h => h.slot != e) }

section
variable {s : State} {t e : Nat} {x : Land} (hentry : (leafAt s t).lands.find? (fun y => y.slot == e) = some x)
include hentry

theorem releaseHeldCords_unmet (hmet : x.met = false) : releaseHeldCords t e s = s := by
  simp [releaseHeldCords, hentry, hmet]

theorem releaseHeldCords_met (hmet : x.met = true) : releaseHeldCords t e s =
    forEach (releaseOrder ((leafAt s t).held.filter fun h => h.slot == e)) (setLeaf t (released e) s) (sendHeld t e) := by
  simp only [releaseHeldCords, hentry, hmet, if_true]
  rfl

end

section
variable {s : State} {t : Fin 576} {n : Fin 64}

theorem exec_heldCordRelease (hlive : leafLive s t.val = true) :
    exec (.heldCordRelease t n) s = .next (keepQueue s (releaseHeldCords t.val n.val s)) := done_onlyIf_true hlive

variable {x : Land} (hlive : leafLive s t.val = true)
  (hentry : (leafAt s t.val).lands.find? (fun y => y.slot == n.val) = some x)
include hlive hentry

theorem heldCordRelease_unmet (hmet : x.met = false) : exec (.heldCordRelease t n) s = .next s := by
  rw [exec_heldCordRelease hlive, releaseHeldCords_unmet hentry hmet, keepQueue_self]

theorem heldCordRelease_met (hmet : x.met = true) (hbuf : ∀ h ∈ (leafAt s t.val).held, ∀ b ∈ h.buf.toList, b < 3072) :
    ∃ u, exec (.heldCordRelease t n) s = .next u ∧
      u = { s with leaves := u.leaves, fabric := u.fabric, kiln := { s.kiln with used := u.kiln.used } } ∧
      (∀ k, k ≠ t.val → leafAt u k = leafAt s k) ∧ leafAt u t.val = released n.val (leafAt s t.val) ∧
      (∀ h ∈ (leafAt s t.val).held, h.slot = n.val → ∃ it ∈ u.fabric.items, bringsHeld t.val n.val h it) ∧
      ∀ it ∈ s.fabric.items, it ∈ u.fabric.items := by
  rw [exec_heldCordRelease hlive, releaseHeldCords_met hentry hmet]
  have hmine : ∀ h ∈ releaseOrder ((leafAt s t.val).held.filter fun h => h.slot == n.val), ∀ b ∈ h.buf.toList, b < 3072 :=
    fun h hh => hbuf h (List.mem_filter.mp ((mem_releaseOrder h _).mp hh)).1
  obtain ⟨⟨f, used, hu, hkept⟩, hbrought⟩ := forEach_sendHeld_added n.val t.isLt hmine (setLeaf t.val (released n.val) s)
  rw [hu] at hbrought ⊢
  refine ⟨_, rfl, rfl, fun k hk => leafAt_setLeaf_ne t.val k (released n.val) s hk, leafAt_setLeaf t.val (released n.val) s, ?_, hkept⟩
  intro h hheld hslot
  exact hbrought h ((mem_releaseOrder h _).mpr (List.mem_filter.mpr ⟨hheld, beq_iff_eq.mpr hslot⟩))

end

/-! ### The statement -/

/-- Settles O46: each command by the case of the write that it meets, the held cords by induction over the order in which they leave. -/
theorem leavesWriteWhatLands : Obligations.LeavesWriteWhatLands := by
  refine ⟨fun s t => ⟨fun hdead => ?dead, fun hlive => ⟨cordLand_idle hlive,
      fun hfree => ⟨writeGrant_free hlive hfree, landingStall_free hlive hfree⟩, fun it q x e => cordLand_begins hlive⟩⟩,
    fun s t w hlive hw => ⟨fun b b2 bs => writeGrant_silent hlive hw, fun b => writeGrant_givenUp hlive hw,
      fun b c x hbeats hvoid => writeGrant_record hlive hw hbeats hvoid, fun b => writeGrant_ownRecord hlive hw,
      fun c => landingStall_logged hlive hw, landingStall_silent hlive hw⟩,
    fun s t n x hlive hentry => ⟨heldCordRelease_unmet hlive hentry, heldCordRelease_met hlive hentry⟩⟩
  case dead =>
    exact ⟨done_onlyIf_false hdead, done_onlyIf_false hdead, done_onlyIf_false hdead, fun n => done_onlyIf_false hdead⟩

end Sys2Proof.Machine
end

section
/-! PLL lock, loss of lock, throttle codes and the seam (R271, R355, R356, R448). -/

namespace Sys2Proof.Machine

/-! ### Throttle codes: what an acknowledged change and a refusal leave (R355, R356) -/

/-- The parts that a throttle code may change. -/
def throttleTouch : Touch := { logTouch with power := true, pins := true }

section
variable {s u : State} (h : Half)

theorem toggleAck_touch (hs : Touches throttleTouch s u) (east : Bool) : Touches throttleTouch s (toggleAck east u) := by
  cases east
  · exact hs.pinsUpd rfl _
  · exact hs.pinsUpd rfl _

theorem throttled_touch (hs : Touches throttleTouch s u) (old code : Nat) : Touches throttleTouch s (throttled h old code u) :=
  logEv_touch ((toggleAck_touch (hs.powerUpd rfl _) _).powerUpd rfl _) rfl _ _ _ _

theorem throttleRefused_touch (hs : Touches throttleTouch s u) (code : Nat) : Touches throttleTouch s (throttleRefused h code u) :=
  logEv_touch (toggleAck_touch hs _) rfl _ _ _ _

/-- What stays within the parts of a throttle code is the state but for those parts. -/
theorem Touches.eq_of_throttle (hs : Touches throttleTouch s u) :
    u = { s with power := u.power, pins := u.pins, log := u.log, free := u.free,
                 time := { s.time with exceptionsNow := u.time.exceptionsNow } } := by
  have htime : u.time = { s.time with exceptionsNow := u.time.exceptionsNow } :=
    congrArg (fun t : Time => { t with exceptionsNow := u.time.exceptionsNow }) (hs.timeDim rfl)
  rw [← htime, ← hs.params, ← hs.pending, ← hs.rp rfl, ← hs.freeze rfl, ← hs.inject rfl, ← hs.kindle rfl, ← hs.image rfl, ← hs.faults rfl,
    ← hs.leaves rfl, ← hs.shadows rfl, ← hs.links rfl, ← hs.fabric rfl, ← hs.tables rfl, ← hs.ctr rfl, ← hs.inbox rfl,
    ← hs.step rfl rfl, ← hs.kiln rfl rfl]

variable (s)

@[simp] theorem toggleAck_power (east : Bool) : (toggleAck east s).power = s.power := by cases east <;> rfl

theorem throttled_power (old code : Nat) : (throttled h old code s).power =
    { s.power with throttleChanges := satAdd s.power.throttleChanges 1, throttled := (throttled h old code s).power.throttled } := by
  simp [throttled, noteThrottle]

@[simp] theorem throttled_pins (old code : Nat) : (throttled h old code s).pins = (toggleAck (h == .east) s).pins := by
  cases h <;> simp [throttled, noteThrottle, toggleAck]

@[simp] theorem throttleRefused_power (code : Nat) : (throttleRefused h code s).power = s.power := by simp [throttleRefused]

@[simp] theorem throttleRefused_pins (code : Nat) : (throttleRefused h code s).pins = (toggleAck (h == .east) s).pins := by
  simp [throttleRefused]

end

/-! ### A code that takes effect (R355, R356, R271) -/

/-- The west half at another throttle step. -/
def westAt (c : BitVec 3) (s : State) : State := { s with power := { s.power with stepW := c.setWidth 2 } }

/-- The east half at another throttle step; a stop of its clock, made or waiting, is over. -/
def eastAt (c : BitVec 3) (s : State) : State :=
  { s with power := { s.power with stepE := c.setWidth 2, eastStopped := false, eastStopWaits := false } }

section
variable {c : BitVec 3} (s : State)

theorem applyCode_west (hc : c.toNat ≤ 3) :
    applyCode .west c s = throttled .west s.power.stepW.toNat c.toNat (westAt c s) := by
  simp only [applyCode, hc, if_true]
  rfl

theorem applyCode_east (hc : c.toNat ≤ 3) :
    applyCode .east c s = throttled .east s.power.stepE.toNat c.toNat (eastAt c s) := by
  simp only [applyCode, hc, if_true]
  rfl

theorem applyCode_west_sets (hc : c.toNat ≤ 3) : (applyCode .west c s).power.stepW = c.setWidth 2 ∧
    (applyCode .west c s).pins.thrAckW = (!s.pins.thrAckW) ∧ (applyCode .west c s).pins.thrAckE = s.pins.thrAckE ∧
    (applyCode .west c s).power.throttleChanges = satAdd s.power.throttleChanges 1 ∧
    (applyCode .west c s).power.stepE = s.power.stepE := by
  rw [applyCode_west s hc, throttled_pins, throttled_power]
  exact ⟨rfl, rfl, rfl, rfl, rfl⟩

theorem applyCode_east_sets (hc : c.toNat ≤ 3) : (applyCode .east c s).power.stepE = c.setWidth 2 ∧
    (applyCode .east c s).pins.thrAckE = (!s.pins.thrAckE) ∧ (applyCode .east c s).pins.thrAckW = s.pins.thrAckW ∧
    (applyCode .east c s).power.stepW = s.power.stepW ∧ (applyCode .east c s).power.eastStopped = false ∧
    (applyCode .east c s).power.throttleChanges = satAdd s.power.throttleChanges 1 := by
  rw [applyCode_east s hc, throttled_pins, throttled_power]
  exact ⟨rfl, rfl, rfl, rfl, rfl, rfl⟩

theorem applyCode_refused_west (hc : 4 ≤ c.toNat) : applyCode .west c s = throttleRefused .west c.toNat s := by
  simp [applyCode, Nat.not_le.mpr hc]

theorem applyCode_refused_east (hc : 5 ≤ c.toNat ∨ c.toNat = 4 ∧ eastLinkUp s = true) :
    applyCode .east c s = throttleRefused .east c.toNat s := by
  obtain hc | ⟨hc, hup⟩ := hc
  · have h3 : ¬c.toNat ≤ 3 := by omega
    have h4 : c.toNat ≠ 4 := by omega
    simp [applyCode, h3, h4]
  · simp [applyCode, hc, hup]

variable {s}

theorem applyCode_stop (hup : eastLinkUp s = false) (hbound : eastBound s = false) : applyCode .east 4 s = stopEast s := by
  simp [applyCode, hup, hbound]

theorem applyCode_stop_waits (hup : eastLinkUp s = false) (hbound : eastBound s = true) :
    applyCode .east 4 s = { s with power := { s.power with eastStopWaits := true } } := by
  simp [applyCode, hup, hbound]

theorem stopEast_power (s : State) : (stopEast s).power =
    { s.power with eastStopped := true, eastClosed := true, eastStopWaits := false,
                   throttleChanges := satAdd s.power.throttleChanges 1, throttled := (stopEast s).power.throttled } :=
  throttled_power ..

@[simp] theorem stopEast_pins (s : State) : (stopEast s).pins = (toggleAck true s).pins := throttled_pins ..

end

theorem applyCode_touch {s u : State} (hs : Touches throttleTouch s u) (h : Half) (c : BitVec 3) :
    Touches throttleTouch s (applyCode h c u) := by
  unfold applyCode
  dsimp only
  split
  · cases h
    · exact throttled_touch _ (hs.powerUpd rfl _) _ _
    · exact throttled_touch _ (hs.powerUpd rfl _) _ _
  · split
    · split
      · exact hs.powerUpd rfl _
      · exact throttled_touch _ (hs.powerUpd rfl _) _ _
    · exact throttleRefused_touch _ hs _

/-! ### THROTTLE_CHANGE -/

section
variable {s : State} {c : BitVec 3}

theorem exec_throttleChange_west (hlocked : c.toNat ≤ 3 → s.power.pllW = true) :
    exec (.throttleChange .west c) s = .next (applyCode .west c s) := by
  refine Eq.trans ?_ (done_eq (applyCode_touch (.refl _ s) .west c))
  have hnow : ¬(c.toNat ≤ 3 ∧ (!s.power.pllW) = true) := fun hrec => by simp [hlocked hrec.1] at hrec
  exact congrArg (done s) (if_neg hnow)

theorem exec_throttleChange_east (hlocked : c.toNat ≤ 4 → s.power.pllE = true) :
    exec (.throttleChange .east c) s = .next (applyCode .east c s) := by
  refine Eq.trans ?_ (done_eq (applyCode_touch (.refl _ s) .east c))
  have hnow : ¬(c.toNat ≤ 4 ∧ (!s.power.pllE) = true) := fun hrec => by simp [hlocked hrec.1] at hrec
  exact congrArg (done s) (if_neg hnow)

theorem throttleChange_west_recorded (hc : c.toNat ≤ 3) (hpll : s.power.pllW = false) :
    exec (.throttleChange .west c) s = .next { s with power := { s.power with codeW := some c } } :=
  congrArg (done s) (if_pos ⟨hc, by rw [hpll]; rfl⟩)

theorem throttleChange_east_recorded (hc : c.toNat ≤ 4) (hpll : s.power.pllE = false) :
    exec (.throttleChange .east c) s = .next { s with power := { s.power with codeE := some c } } :=
  congrArg (done s) (if_pos ⟨hc, by rw [hpll]; rfl⟩)

theorem throttleChange_west_running (hc : c.toNat ≤ 3) (hpll : s.power.pllW = true) :
    ∃ t, exec (.throttleChange .west c) s = .next t ∧ t.power.stepW = c.setWidth 2 ∧
      t.pins.thrAckW = (!s.pins.thrAckW) ∧ t.pins.thrAckE = s.pins.thrAckE ∧
      t.power.throttleChanges = satAdd s.power.throttleChanges 1 ∧ t.power.stepE = s.power.stepE ∧
      t = { s with power := t.power, pins := t.pins, log := t.log, free := t.free,
                   time := { s.time with exceptionsNow := t.time.exceptionsNow } } := by
  obtain ⟨hstep, hackW, hackE, hchanges, heast⟩ := applyCode_west_sets s hc
  exact ⟨_, exec_throttleChange_west fun _ => hpll, hstep, hackW, hackE, hchanges, heast,
    (applyCode_touch (.refl _ s) .west c).eq_of_throttle⟩

theorem throttleChange_east_running (hc : c.toNat ≤ 3) (hpll : s.power.pllE = true) :
    ∃ t, exec (.throttleChange .east c) s = .next t ∧ t.power.stepE = c.setWidth 2 ∧
      t.pins.thrAckE = (!s.pins.thrAckE) ∧ t.pins.thrAckW = s.pins.thrAckW ∧ t.power.stepW = s.power.stepW ∧
      t.power.eastStopped = false ∧ t.power.throttleChanges = satAdd s.power.throttleChanges 1 :=
  ⟨_, exec_throttleChange_east fun _ => hpll, applyCode_east_sets s hc⟩

theorem throttleChange_west_refused (hc : 4 ≤ c.toNat) : ∃ t, exec (.throttleChange .west c) s = .next t ∧ t.power = s.power ∧
    t.pins.thrAckW = (!s.pins.thrAckW) ∧ t.pins.thrAckE = s.pins.thrAckE := by
  refine ⟨_, exec_throttleChange_west fun hrun => by omega, ?_⟩
  rw [applyCode_refused_west s hc, throttleRefused_power, throttleRefused_pins]
  exact ⟨rfl, rfl, rfl⟩

theorem throttleChange_east_refused (hc : 5 ≤ c.toNat ∨ c.toNat = 4 ∧ s.power.pllE = true ∧ eastLinkUp s = true) :
    ∃ t, exec (.throttleChange .east c) s = .next t ∧ t.power = s.power ∧ t.pins.thrAckE = (!s.pins.thrAckE) ∧
      t.pins.thrAckW = s.pins.thrAckW := by
  refine ⟨_, exec_throttleChange_east fun hrun => ?_, ?_⟩
  · obtain hc | ⟨-, hpll, -⟩ := hc
    · omega
    · exact hpll
  · rw [applyCode_refused_east s (hc.imp_right fun ⟨h4, _, hup⟩ => ⟨h4, hup⟩), throttleRefused_power, throttleRefused_pins]
    exact ⟨rfl, rfl, rfl⟩

section
variable (hpll : s.power.pllE = true) (hup : eastLinkUp s = false)
include hpll hup

theorem throttleChange_east_stops (hbound : eastBound s = false) : ∃ t, exec (.throttleChange .east 4) s = .next t ∧
    t.power.eastStopped = true ∧ t.power.eastClosed = true ∧ clockRuns t true = false ∧ t.pins.thrAckE = (!s.pins.thrAckE) := by
  refine ⟨_, exec_throttleChange_east fun _ => hpll, ?_⟩
  rw [applyCode_stop hup hbound]
  have hstopped : (stopEast s).power.eastStopped = true := by rw [stopEast_power]
  exact ⟨hstopped, by rw [stopEast_power], by simp [clockRuns, hstopped], congrArg Pins.thrAckE (stopEast_pins s)⟩

theorem throttleChange_east_waits (hbound : eastBound s = true) :
    exec (.throttleChange .east 4) s = .next { s with power := { s.power with eastStopWaits := true } } :=
  (exec_throttleChange_east fun _ => hpll).trans (congrArg _ (applyCode_stop_waits hup hbound))

end

end

/-! ### SEAM_REOPEN (R271) -/

theorem seamReopen_reopens {s : State} (hclosed : s.power.eastClosed = true) (hruns : clockRuns s true = true) :
    exec .seamReopen s = .next { s with power := { s.power with eastClosed := false, eastWanted := false } } :=
  congrArg (done s) (if_pos (by rw [hclosed, hruns]; rfl))

theorem seamReopen_stays {s : State} (h : s.power.eastClosed = false ∨ clockRuns s true = false) : exec .seamReopen s = .next s :=
  congrArg (done s) (if_neg (by obtain h | h := h <;> simp [h]))

end Sys2Proof.Machine
end

section
/-! A clocking domain whose PLL locks or loses its lock (R341, R343, R345, R353, R448). -/

namespace Sys2Proof.Machine

/-! ### Domains that are WARM -/

theorem warm_iff {s : State} {d : Nat} : warm s d = true ↔ implemented s d = true ∧ (dom s d).st = .warm := by
  simp only [warm, domSt]
  split <;> simp_all

theorem warm_of_doms {s t : State} (hparams : t.params = s.params) (hdoms : t.power.doms = s.power.doms) (d : Nat) : warm t d = warm s d := by
  have himpl : implemented t d = implemented s d := by rw [implemented, hparams, implemented]
  simp only [warm, domSt, dom, himpl, hdoms]

theorem warm_setDom_ne {d k : Nat} (f : Dom → Dom) (s : State) (hk : k ≠ d) : warm (setDom d f s) k = warm s k := by
  have himpl : implemented (setDom d f s) k = implemented s k := rfl
  simp only [warm, domSt, himpl, dom_setDom_ne d k f s hk]

theorem warm_setDom_same {d : Nat} {f : Dom → Dom} {s : State} :
    warm (setDom d f s) d = true ↔ implemented s d = true ∧ (f (dom s d)).st = .warm := by
  rw [warm_iff, dom_setDom]
  rfl

/-! ### What asking for domains leaves alone -/

/-- The power field without the domains, their waits and the wake of the block. -/
def Power.clocks (p : Power) : Power := { p with doms := [], reqSince := [], coldSince := [], waking := false, banked := false }

/-- The clocks are as they were, and no domain that was WARM has left. -/
structure ClocksKept (s t : State) : Prop where
  params : t.params = s.params
  pins : t.pins = s.pins
  clocks : t.power.clocks = s.power.clocks
  warm : ∀ d, warm s d = true → warm t d = true

namespace ClocksKept

theorem refl (s : State) : ClocksKept s s := ⟨rfl, rfl, rfl, fun _ h => h⟩

section
variable {s u : State} (hs : ClocksKept s u)
include hs

theorem pllW : u.power.pllW = s.power.pllW := (congrArg Power.pllW hs.clocks :)
theorem pllE : u.power.pllE = s.power.pllE := (congrArg Power.pllE hs.clocks :)
theorem stepW : u.power.stepW = s.power.stepW := (congrArg Power.stepW hs.clocks :)
theorem stepE : u.power.stepE = s.power.stepE := (congrArg Power.stepE hs.clocks :)
theorem codeW : u.power.codeW = s.power.codeW := (congrArg Power.codeW hs.clocks :)
theorem codeE : u.power.codeE = s.power.codeE := (congrArg Power.codeE hs.clocks :)
theorem eastStopped : u.power.eastStopped = s.power.eastStopped := (congrArg Power.eastStopped hs.clocks :)
theorem throttleChanges : u.power.throttleChanges = s.power.throttleChanges := (congrArg Power.throttleChanges hs.clocks :)

/-- A change that leaves the domains as they are. -/
theorem ofDoms {v : State} (hparams : v.params = u.params) (hpins : v.pins = u.pins) (hclocks : v.power.clocks = u.power.clocks)
    (hdoms : v.power.doms = u.power.doms) : ClocksKept s v :=
  ⟨hparams.trans hs.params, hpins.trans hs.pins, hclocks.trans hs.clocks, fun d hd => (warm_of_doms hparams hdoms d).trans (hs.warm d hd)⟩

theorem setDom (d : Nat) {f : Dom → Dom} (hf : (dom u d).st = .warm → (f (dom u d)).st = .warm) : ClocksKept s (setDom d f u) := by
  refine ⟨hs.params, hs.pins, hs.clocks, fun k hk => ?_⟩
  have huk := hs.warm k hk
  by_cases hkd : k = d
  · subst hkd
    exact warm_setDom_same.mpr ((warm_iff.mp huk).imp_right hf)
  · rwa [warm_setDom_ne f u hkd]

theorem logEv (c n a b : Nat) : ClocksKept s (logEv c n a b u) :=
  hs.ofDoms (logEv_params ..) (logEv_pins ..) (congrArg Power.clocks (logEv_power ..)) (congrArg Power.doms (logEv_power ..))

theorem forEach {α : Type} (l : List α) (f : α → State → State) (hf : ∀ a v, ClocksKept s v → ClocksKept s (f a v)) :
    ClocksKept s (forEach l u f) := by
  unfold Machine.forEach
  induction l generalizing u with
  | nil => exact hs
  | cons a l ih => exact ih (hf a u hs)

theorem requestOne (d : Nat) : ClocksKept s (requestOne d u) := by
  unfold Machine.requestOne
  dsimp only
  split
  · exact hs
  · split
    · exact hs
    · exact hs.setDom d fun hst => hst
    · next hcold _ =>
      split
      · exact hs.setDom d fun hst => hst
      · refine ClocksKept.setDom ?_ d fun hst => absurd hst hcold
        exact hs.ofDoms rfl rfl rfl rfl

theorem requestDom (d : Nat) : ClocksKept s (requestDom d u) := by
  unfold Machine.requestDom
  split
  · exact hs.requestOne d
  · next c _ =>
    split
    · exact hs.requestOne d
    · dsimp only
      split
      · exact (hs.requestOne c).setDom d fun hst => hst
      · exact hs.requestOne c

theorem requestWanted : ClocksKept s (requestWanted u) := hs.forEach _ _ fun p _ hv => hv.requestOne p.1

theorem endColdWait (d : Nat) : ClocksKept s (endColdWait d u) := by
  unfold Machine.endColdWait
  dsimp only
  split
  · exact hs
  · refine ClocksKept.logEv ?_ ..
    exact hs.ofDoms rfl rfl rfl rfl

theorem stage1Check : ClocksKept s (stage1Check u) := by
  unfold Machine.stage1Check
  split
  · exact hs.ofDoms rfl rfl rfl rfl
  · exact hs

theorem resumeLinks : ClocksKept s (resumeLinks u) := by
  unfold Machine.resumeLinks
  refine ClocksKept.forEach ?_ _ _ fun _ _ hv => ?_
  · exact hs.ofDoms rfl rfl rfl rfl
  · exact hv.ofDoms rfl rfl rfl rfl

theorem wakeCheck : ClocksKept s (wakeCheck u) := by
  unfold Machine.wakeCheck
  split
  · refine ClocksKept.logEv (ClocksKept.resumeLinks ?_) ..
    exact hs.ofDoms rfl rfl rfl rfl
  · exact hs

end

end ClocksKept

/-! ### PLL_LOCK (R448, R353, R356) -/

/-- The clocking domain of a half. -/
def clockOf (h : Half) : Nat :=
  match h with
  | .west => 60
  | .east => 61

theorem implemented_clockOf (h : Half) (s : State) : implemented s (clockOf h) = true := by
  cases h <;> simp [implemented, clockOf]

/-- The PLL of a half has locked, or has not. -/
def setPll (h : Half) (locked : Bool) (s : State) : State :=
  match h with
  | .west => { s with power := { s.power with pllW := locked } }
  | .east => { s with power := { s.power with pllE := locked } }

/-- The clocking domain of a half is WARM and its PLL locked. -/
def pllLocked (h : Half) (s : State) : State := setPll h true (setDom (clockOf h) (fun y => { y with st := .warm }) s)

/-- The domains that a wake of the block asks for once both PLLs have locked (R353). -/
def wakeAsks (s : State) : State :=
  if s.power.waking && s.power.pllW && s.power.pllE then
    requestDoms (blockDoms.filter (fun x => (domSt s x == .banked || (domSt s x == .waking && (dom s x).leave.isSome)) && !heldBanked s x)) s
  else s

/-- What waited for the lock of a clocking domain's PLL goes on. -/
def afterLock (d : Nat) (s : State) : State := wakeCheck (stage1Check (wakeAsks (requestWanted (endColdWait d s))))

theorem afterLock_clocksKept (d : Nat) (s : State) : ClocksKept s (afterLock d s) := by
  have hwanted := ((ClocksKept.refl s).endColdWait d).requestWanted
  refine ClocksKept.wakeCheck (ClocksKept.stage1Check ?_)
  unfold wakeAsks
  split
  · exact hwanted.forEach _ _ fun x _ hv => hv.requestDom x
  · exact hwanted

theorem warm_pllLocked (h : Half) (s : State) : warm (pllLocked h s) (clockOf h) = true := by
  have hset : warm (setDom (clockOf h) (fun y => { y with st := .warm }) s) (clockOf h) = true :=
    warm_setDom_same.mpr ⟨implemented_clockOf h s, rfl⟩
  cases h <;> exact hset

/-- A throttle code leaves the domains, the PLLs and the recorded codes alone. -/
theorem applyCode_keeps (h : Half) (c : BitVec 3) (s : State) :
    (applyCode h c s).power.doms = s.power.doms ∧ (applyCode h c s).power.pllW = s.power.pllW ∧
      (applyCode h c s).power.pllE = s.power.pllE ∧ (applyCode h c s).power.codeW = s.power.codeW ∧
      (applyCode h c s).power.codeE = s.power.codeE := by
  unfold applyCode
  dsimp only
  split
  · cases h <;> rw [throttled_power] <;> exact ⟨rfl, rfl, rfl, rfl, rfl⟩
  · split
    · split
      · exact ⟨rfl, rfl, rfl, rfl, rfl⟩
      · rw [stopEast_power]
        exact ⟨rfl, rfl, rfl, rfl, rfl⟩
    · rw [throttleRefused_power]
      exact ⟨rfl, rfl, rfl, rfl, rfl⟩

/-- A half's recorded code is forgotten. -/
def forgetCode (h : Half) (s : State) : State :=
  match h with
  | .west => { s with power := { s.power with codeW := none } }
  | .east => { s with power := { s.power with codeE := none } }

section
variable {s : State} {c : BitVec 3}

theorem recordedCode_west (hcode : s.power.codeW = some c) : recordedCode .west s = applyCode .west c (forgetCode .west s) := by
  simp only [recordedCode, withSome, hcode]
  rfl

theorem recordedCode_east (hcode : s.power.codeE = some c) : recordedCode .east s = applyCode .east c (forgetCode .east s) := by
  simp only [recordedCode, withSome, hcode]
  rfl

variable (h : Half) (s)

/-- The lock of a PLL takes a recorded code in force, or there is none. -/
theorem recordedCode_cases : recordedCode h s = s ∨ ∃ c, recordedCode h s = applyCode h c (forgetCode h s) := by
  cases h with
  | west =>
    cases hcode : s.power.codeW with
    | none => exact .inl (by simp only [recordedCode, withSome, hcode])
    | some c => exact .inr ⟨c, recordedCode_west hcode⟩
  | east =>
    cases hcode : s.power.codeE with
    | none => exact .inl (by simp only [recordedCode, withSome, hcode])
    | some c => exact .inr ⟨c, recordedCode_east hcode⟩

theorem recordedCode_keeps : (recordedCode h s).params = s.params ∧ (recordedCode h s).power.doms = s.power.doms ∧
    (recordedCode h s).power.pllW = s.power.pllW ∧ (recordedCode h s).power.pllE = s.power.pllE := by
  obtain hsame | ⟨c, htaken⟩ := recordedCode_cases s h
  · rw [hsame]
    exact ⟨rfl, rfl, rfl, rfl⟩
  · obtain ⟨hdoms, hpllW, hpllE, -, -⟩ := applyCode_keeps h c (forgetCode h s)
    rw [htaken, hdoms, hpllW, hpllE, (applyCode_touch (.refl _ _) h c).params]
    cases h <;> exact ⟨rfl, rfl, rfl, rfl⟩

end

section
variable {s : State} {h : Half} (hgnt : (dom s (clockOf h)).gnt = true) (hst : domSt s (clockOf h) = .waking)
include hgnt hst

theorem exec_pllLock :
    exec (.pllLock h) s = .next (keepQueue s (afterLock (clockOf h) (recordedCode h (pllLocked h s)))) := by
  have hgo : ¬(!(dom s (clockOf h)).gnt || domSt s (clockOf h) != .waking) = true := by simp [hgnt, hst]
  cases h <;> exact congrArg (done s) (if_neg hgo)

/-- PLL_LOCK: the lock with a recorded code taken in force, then what only asks for domains. -/
theorem pllLock_clocksKept : ∃ t, exec (.pllLock h) s = .next t ∧ ClocksKept (recordedCode h (pllLocked h s)) t ∧
    warm t (clockOf h) = true := by
  obtain ⟨hparams, hdoms, -, -⟩ := recordedCode_keeps (pllLocked h s) h
  have hafter := afterLock_clocksKept (clockOf h) (recordedCode h (pllLocked h s))
  have hlocked : (pllLocked h s).params = s.params := by cases h <;> rfl
  have hkept : ClocksKept (recordedCode h (pllLocked h s)) (keepQueue s (afterLock (clockOf h) (recordedCode h (pllLocked h s)))) :=
    hafter.ofDoms (hafter.params.trans (hparams.trans hlocked)).symm rfl rfl rfl
  exact ⟨_, exec_pllLock hgnt hst, hkept, hkept.warm _ ((warm_of_doms hparams hdoms _).trans (warm_pllLocked h s))⟩

end

section
variable {s t : State} {c : BitVec 3}

theorem pllLock_west_code (hkept : ClocksKept (recordedCode .west (pllLocked .west s)) t) (hcode : s.power.codeW = some c) (hc : c.toNat ≤ 3) :
    t.power.stepW = c.setWidth 2 ∧ t.power.codeW = none ∧ t.pins.thrAckW = (!s.pins.thrAckW) ∧
      t.power.throttleChanges = satAdd s.power.throttleChanges 1 := by
  rw [recordedCode_west (s := pllLocked .west s) hcode] at hkept
  obtain ⟨hstep, hack, -, hchanges, -⟩ := applyCode_west_sets (forgetCode .west (pllLocked .west s)) hc
  obtain ⟨-, -, -, hforgot, -⟩ := applyCode_keeps .west c (forgetCode .west (pllLocked .west s))
  exact ⟨hkept.stepW.trans hstep, hkept.codeW.trans hforgot, (congrArg Pins.thrAckW hkept.pins).trans hack,
    hkept.throttleChanges.trans hchanges⟩

theorem pllLock_east_code (hkept : ClocksKept (recordedCode .east (pllLocked .east s)) t) (hwarm : warm t 61 = true)
    (hcode : s.power.codeE = some c) :
    t.power.codeE = none ∧
      (c.toNat ≤ 3 → t.power.stepE = c.setWidth 2 ∧ t.power.eastStopped = false ∧ clockRuns t true = true ∧
        t.pins.thrAckE = (!s.pins.thrAckE) ∧ t.power.throttleChanges = satAdd s.power.throttleChanges 1) ∧
      (c = 4 → eastLinkUp s = true → t.power.eastStopped = s.power.eastStopped ∧ t.power.stepE = s.power.stepE ∧
        t.pins.thrAckE = (!s.pins.thrAckE)) ∧
      (c = 4 → eastLinkUp s = false → eastBound s = false → t.power.eastStopped = true ∧ clockRuns t true = false ∧
        t.pins.thrAckE = (!s.pins.thrAckE) ∧ t.power.throttleChanges = satAdd s.power.throttleChanges 1) := by
  rw [recordedCode_east (s := pllLocked .east s) hcode] at hkept
  obtain ⟨-, -, -, -, hforgot⟩ := applyCode_keeps .east c (forgetCode .east (pllLocked .east s))
  have hack := congrArg Pins.thrAckE hkept.pins
  refine ⟨hkept.codeE.trans hforgot, fun hc => ?runs, ?refused, ?stops⟩
  case runs =>
    obtain ⟨hstep, hackE, -, -, hstarted, hchanges⟩ := applyCode_east_sets (forgetCode .east (pllLocked .east s)) hc
    have hrunning := hkept.eastStopped.trans hstarted
    exact ⟨hkept.stepE.trans hstep, hrunning, by simp [clockRuns, hwarm, hrunning], hack.trans hackE, hkept.throttleChanges.trans hchanges⟩
  case refused =>
    rintro rfl hup
    have hrefused := applyCode_refused_east (forgetCode .east (pllLocked .east s)) (c := 4) (.inr ⟨rfl, hup⟩)
    rw [hrefused] at hkept hack
    have hstopped := hkept.eastStopped
    have hstep := hkept.stepE
    rw [throttleRefused_power] at hstopped hstep
    exact ⟨hstopped, hstep, hack.trans (congrArg Pins.thrAckE (throttleRefused_pins ..))⟩
  case stops =>
    rintro rfl hup hbound
    rw [applyCode_stop (s := forgetCode .east (pllLocked .east s)) hup hbound] at hkept hack
    have hstopped := hkept.eastStopped.trans (congrArg Power.eastStopped (stopEast_power _))
    exact ⟨hstopped, by simp [clockRuns, hstopped], hack.trans (congrArg Pins.thrAckE (stopEast_pins _)),
      hkept.throttleChanges.trans (congrArg Power.throttleChanges (stopEast_power _))⟩

end

end Sys2Proof.Machine
end

section
/-! A clocking domain that loses its lock: the power fault that fails the die (R338, R343, R379, R448). -/

namespace Sys2Proof.Machine

/-! ### What cools a domain -/

/-- No domain has become WARM, and no PLL has locked. -/
structure CoolsOnly (s t : State) : Prop where
  warm : ∀ d, warm t d = true → warm s d = true
  pllW : t.power.pllW = true → s.power.pllW = true
  pllE : t.power.pllE = true → s.power.pllE = true

namespace CoolsOnly

theorem refl (s : State) : CoolsOnly s s := ⟨fun _ h => h, id, id⟩

theorem trans {s t u : State} (h : CoolsOnly s t) (k : CoolsOnly t u) : CoolsOnly s u :=
  ⟨fun d hd => h.warm d (k.warm d hd), fun hw => h.pllW (k.pllW hw), fun he => h.pllE (k.pllE he)⟩

theorem setDom (d : Nat) {f : Dom → Dom} (s : State) (hf : (f (dom s d)).st = .warm → (dom s d).st = .warm) :
    CoolsOnly s (setDom d f s) := by
  refine ⟨fun k hk => ?_, id, id⟩
  by_cases hkd : k = d
  · subst hkd
    exact warm_iff.mpr ((warm_setDom_same.mp hk).imp_right hf)
  · rwa [warm_setDom_ne f s hkd] at hk

end CoolsOnly

theorem domSt_of_implemented {s : State} {d : Nat} (himpl : implemented s d = true) : domSt s d = (dom s d).st := if_pos himpl

/-- A domain that has left WARM, OFF or BANKED. -/
def domLeft (off : Bool) (y : Dom) : Dom :=
  { y with st := if off then .off else .banked, req := false, ret := !off, wanted := false, leave := none }

theorem domLeft_ne_warm (off : Bool) (y : Dom) : (domLeft off y).st ≠ .warm := by cases off <;> exact nofun

/-- A domain that leaves WARM, or is to leave once it has been granted, is not WARM, and no other becomes so (R341). -/
theorem leaveDom_cools (off : Bool) (d : Nat) (s : State) : CoolsOnly s (leaveDom off d s) ∧ warm (leaveDom off d s) d = false := by
  unfold leaveDom
  split
  · next himpl =>
    exact ⟨.refl s, Bool.eq_false_iff.mpr fun hw => by simp [(warm_iff.mp hw).1] at himpl⟩
  · split
    · next himpl hwaking =>
      refine ⟨.setDom d s id, Bool.eq_false_iff.mpr fun hw => ?_⟩
      have hwarm : domSt s d = .warm := (domSt_of_implemented (by simpa using himpl)).trans (warm_setDom_same.mp hw).2
      simp [hwarm] at hwaking
    · have hleft : CoolsOnly s (setDom d (domLeft off) s) := .setDom d s fun hw => absurd hw (domLeft_ne_warm off _)
      have hcold : warm (setDom d (domLeft off) s) d = false :=
        Bool.eq_false_iff.mpr fun hw => domLeft_ne_warm off _ (warm_setDom_same.mp hw).2
      dsimp only
      split
      · exact ⟨hleft.trans ⟨fun _ hw => hw, nofun, id⟩, hcold⟩
      · split
        · exact ⟨hleft.trans ⟨fun _ hw => hw, id, nofun⟩, hcold⟩
        · exact ⟨hleft, hcold⟩

theorem forEach_leaveDom_cools (off : Bool) (l : List Nat) (s : State) :
    CoolsOnly s (forEach l s (leaveDom off)) ∧ ∀ d ∈ l, warm (forEach l s (leaveDom off)) d = false := by
  induction l generalizing s with
  | nil => exact ⟨.refl s, nofun⟩
  | cons a l ih =>
    obtain ⟨hhead, hcold⟩ := leaveDom_cools off a s
    obtain ⟨htail, hcolds⟩ := ih (leaveDom off a s)
    refine ⟨hhead.trans htail, fun d hd => ?_⟩
    obtain rfl | hd := List.mem_cons.mp hd
    · exact Bool.eq_false_iff.mpr fun hw => Bool.eq_false_iff.mp hcold (htail.warm d hw)
    · exact hcolds d hd

/-- No domain of a half whose clock has stopped is WARM (R338). -/
theorem stopHalf_cools (c : Nat) (s : State) :
    CoolsOnly s (stopHalf c s) ∧ ∀ d ∈ blockDoms, clockDom d = some c → warm (stopHalf c s) d = false := by
  obtain ⟨hcools, hcolds⟩ := forEach_leaveDom_cools false (blockDoms.filter (fun d => clockDom d == some c && warm s d)) s
  refine ⟨hcools, fun d hd hclock => Bool.eq_false_iff.mpr fun hw => ?_⟩
  have hmem : d ∈ blockDoms.filter (fun d => clockDom d == some c && warm s d) :=
    List.mem_filter.mpr ⟨hd, by simp [hclock, hcools.warm d hw]⟩
  exact Bool.eq_false_iff.mp (hcolds d hmem) hw

/-! ### What the failure of the die and the loss of a domain leave alone (R337, R379) -/

/-- The parts that the failure of the die may change beside the faults. -/
def dieTouch : Touch :=
  { log := true, exc := true, free := true, step := true, kiln := true, leaves := true, links := true, inbox := true, fabric := true,
    nodes := true, early := true }

section
variable {s u : State} (hs : Touches dieTouch s u)
include hs

theorem freeEarly_touch (keep : Arrival → Bool) : Touches dieTouch s (freeEarly keep u) :=
  (forEach_touch hs _ _ fun _ _ hv => hv.kilnUpd rfl _).kilnUpd rfl _

theorem noBuffers_touch : Touches dieTouch s (noBuffers u) :=
  ((hs.kilnUpd rfl (noBuffers u).kiln).stepUpd rfl (noBuffers u).step).linksUpd rfl (noBuffers u).links

end

/-- The die with its failure and the cause recorded and its step halted (R379). -/
def dieMarked (cause : Nat) (s : State) : State :=
  { s with faults := { s.faults with dieFailed := true, cause := BitVec.ofNat 5 cause, pending := s.faults.pending ||| 0x01 },
           step := { s.step with state := .halted } }

theorem dieFail_touch {cause : Nat} {s : State} (hlive : s.faults.dieFailed = false) :
    Touches dieTouch (dieMarked cause s) (dieFail cause s) := by
  rw [dieFail, hlive, if_neg Bool.false_ne_true]
  refine route_touch (logEv_touch (noBuffers_touch (freeEarly_touch ?_ _)) rfl _ _ _ _) rfl _ _
  exact ((Touches.refl _ (dieMarked cause s)).leavesUpd rfl _).kilnUpd rfl _

/-- The die has failed; power and parameters are as they were, and no fault line that was up has fallen (R379). -/
theorem dieFail_keeps (cause : Nat) (s : State) :
    (dieFail cause s).params = s.params ∧ (dieFail cause s).power = s.power ∧ (dieFail cause s).faults.dieFailed = true ∧
      ∀ i, s.faults.pending.getLsbD i = true → (dieFail cause s).faults.pending.getLsbD i = true := by
  cases hfailed : s.faults.dieFailed with
  | true =>
    rw [dieFail, hfailed, if_pos rfl]
    exact ⟨rfl, rfl, hfailed, fun _ hi => hi⟩
  | false =>
    have htouch := dieFail_touch (cause := cause) hfailed
    rw [htouch.params, htouch.power rfl, htouch.faults rfl]
    exact ⟨rfl, rfl, rfl, fun i hi => by simp [dieMarked, hi]⟩

/-- The parts that a domain which is OFF may have lost. -/
def lossTouch : Touch :=
  { ctr := true, freeze := true, inject := true, leaves := true, shadows := true, fabric := true, step := true, tables := true, kiln := true,
    links := true }

theorem loseOff_touch (d : Nat) (s : State) : Touches lossTouch s (loseOff d s) := by
  unfold loseOff
  dsimp only
  generalize hgiven : forEach _ s giveBuf = v
  have hv : Touches lossTouch s v := hgiven ▸ forEach_touch (.refl _ s) _ _ fun _ _ hu => hu.kilnUpd rfl _
  have hlost := ((((((hv.ctrUpd rfl (s.ctr.filter (fun p => regDomain p.1 != some d || ctrKept p.1))).freezeUpd rfl
    { s.freeze with captured := s.freeze.captured.filter (fun p => !capturedIn d p.1) }).leavesUpd rfl
    (s.leaves.filter (fun p => segOf p.1 + 1 != d))).shadowsUpd rfl (s.shadows.filter (fun p => p.1 + 1 != d))).fabricUpd rfl
    { s.fabric with items := loseStop d s.fabric.items }).stepUpd rfl
    (if d = 57 then { s.step with digestCur := [], digestPrev := [] } else s.step)).tablesUpd rfl
    (if d = 63 then State.reset.tables else s.tables)
  split
  · exact setLink_touch (hlost.injectUpd rfl _) rfl _ _
  · exact hlost

/-! ### PLL_LOCK_LOST (R448) -/

/-- The PLL of a half has locked. -/
def pllOf (h : Half) (s : State) : Bool :=
  match h with
  | .west => s.power.pllW
  | .east => s.power.pllE

/-- A clocking domain is OFF by a power fault, and its PLL is stopped (R343). -/
def clockLost (h : Half) (s : State) : State :=
  let t := setPll h false (setDom (clockOf h) (fun y => { y with gnt := false, st := .off, req := false, wanted := false, leave := none }) s)
  match h with
  | .west => t
  | .east => { t with power := { t.power with eastClosed := true } }

/-- The power fault of a clocking domain, before the clock of its half stops: the fault line is raised and the die fails (R343, R448). -/
def clockFault (h : Half) (s : State) : State :=
  loseOff (clockOf h) (dieFail 4 (raiseUnclean uPowerFault (otherSeen (logEv 0x0901 unitEmber (clockOf h) 0 (clockLost h s)))))

theorem powerFaultOf_clock (h : Half) (s : State) : powerFaultOf (clockOf h) s = stopHalf (clockOf h) (clockFault h s) := by
  cases h <;> rfl

theorem warm_clockLost (h : Half) (s : State) : warm (clockLost h s) (clockOf h) = false := by
  have hoff : warm (setDom (clockOf h) (fun y => { y with gnt := false, st := .off, req := false, wanted := false, leave := none }) s)
      (clockOf h) = false := Bool.eq_false_iff.mpr fun hw => nomatch (warm_setDom_same.mp hw).2
  cases h <;> exact hoff

theorem pllOf_clockLost (h : Half) (s : State) : pllOf h (clockLost h s) = false := by cases h <;> rfl

theorem CoolsOnly.pllOf {s t : State} (hs : CoolsOnly s t) (h : Half) (ht : pllOf h t = true) : Machine.pllOf h s = true := by
  cases h with
  | west => exact hs.pllW ht
  | east => exact hs.pllE ht

/-- The parts that an unclean reason may change. -/
def uncleanTouch : Touch := { links := true, inbox := true, fabric := true, early := true }

/-- Beside the clock that is lost, the power fault leaves the domains alone; it raises OTHER_SEEN and fails the die. -/
theorem clockFault_keeps (h : Half) (s : State) :
    (clockFault h s).params = (clockLost h s).params ∧ (clockFault h s).power = (clockLost h s).power ∧
      (clockFault h s).faults.dieFailed = true ∧ (clockFault h s).faults.pending.getLsbD 7 = true := by
  unfold clockFault
  generalize hseen : otherSeen (logEv 0x0901 unitEmber (clockOf h) 0 (clockLost h s)) = v
  have hraised : v.params = (clockLost h s).params ∧ v.power = (clockLost h s).power ∧ v.faults.pending.getLsbD 7 = true := by
    subst hseen
    exact ⟨logEv_params .., logEv_power .., by simp [otherSeen, setPend]⟩
  obtain ⟨hparams, hpower, hline⟩ := hraised
  have hunclean := raiseUnclean_touch (.refl uncleanTouch v) rfl rfl uPowerFault
  obtain ⟨hdieParams, hdiePower, hfailed, hkept⟩ := dieFail_keeps 4 (raiseUnclean uPowerFault v)
  have hlost := loseOff_touch (clockOf h) (dieFail 4 (raiseUnclean uPowerFault v))
  rw [hlost.params, hlost.power rfl, hlost.faults rfl, hdieParams, hdiePower, hunclean.params, hunclean.power rfl]
  exact ⟨hparams, hpower, hfailed, hkept 7 (by rwa [hunclean.faults rfl])⟩

theorem leaveDom_touch {T : Touch} {s u : State} (hs : Touches T s u) (h : T.power = true) (off : Bool) (d : Nat) :
    Touches T s (leaveDom off d u) := by
  unfold leaveDom
  dsimp only
  split
  · exact hs
  · split
    · exact setDom_touch hs h _ _
    · split
      · exact (setDom_touch hs h _ _).powerUpd h _
      · split
        · exact (setDom_touch hs h _ _).powerUpd h _
        · exact setDom_touch hs h _ _

theorem stopHalf_touch {T : Touch} {s u : State} (hs : Touches T s u) (h : T.power = true) (c : Nat) : Touches T s (stopHalf c u) :=
  forEach_touch hs _ _ fun d _ hv => leaveDom_touch hv h false d

/-- A clocking domain that has lost its lock: its grant is still there. -/
def lockLost (h : Half) (s : State) : State := setDom (clockOf h) (fun y => { y with gnt := true }) (powerFaultOf (clockOf h) s)

theorem lockLost_cools (h : Half) (s : State) : CoolsOnly (clockLost h s) (lockLost h s) ∧
    ∀ d ∈ blockDoms, clockDom d = some (clockOf h) → warm (lockLost h s) d = false := by
  obtain ⟨hparams, hpower, -, -⟩ := clockFault_keeps h s
  obtain ⟨hstopped, hcold⟩ := stopHalf_cools (clockOf h) (clockFault h s)
  have hregranted : CoolsOnly (stopHalf (clockOf h) (clockFault h s)) (lockLost h s) := by
    rw [lockLost, powerFaultOf_clock]
    exact .setDom _ _ id
  have hfault : CoolsOnly (clockLost h s) (clockFault h s) :=
    ⟨fun d hd => (warm_of_doms hparams (congrArg Power.doms hpower) d).symm.trans hd, fun hw => hpower ▸ hw, fun he => hpower ▸ he⟩
  exact ⟨(hfault.trans hstopped).trans hregranted,
    fun d hd hclock => Bool.eq_false_iff.mpr fun hw => Bool.eq_false_iff.mp (hcold d hd hclock) (hregranted.warm d hw)⟩

theorem lockLost_faults (h : Half) (s : State) : (lockLost h s).faults = (clockFault h s).faults := by
  rw [lockLost, powerFaultOf_clock, setDom_faults]
  exact (stopHalf_touch (T := { power := true }) (.refl _ _) rfl _).faults rfl

theorem exec_pllLockLost {h : Half} {s : State} (hwarm : warm s (clockOf h) = true) :
    exec (.pllLockLost h) s = .next (keepQueue s (lockLost h s)) := by
  cases h <;> exact congrArg (done s) (if_pos hwarm)

theorem lockLost_params (h : Half) (s : State) : (lockLost h s).params = s.params := by
  obtain ⟨hparams, -, -, -⟩ := clockFault_keeps h s
  have hstopped := stopHalf_touch (T := { power := true }) (.refl _ (clockFault h s)) rfl (clockOf h)
  rw [lockLost, powerFaultOf_clock, setDom_params, hstopped.params, hparams]
  cases h <;> rfl

/-- PLL_LOCK_LOST of a WARM clocking domain is a power fault that fails the die, and its half has no clock (R338, R448). -/
theorem pllLockLost_fails {h : Half} {s : State} (hwarm : warm s (clockOf h) = true) :
    ∃ t, exec (.pllLockLost h) s = .next t ∧ warm t (clockOf h) = false ∧ pllOf h t = false ∧ t.faults.pending.getLsbD 7 = true ∧
      t.faults.dieFailed = true ∧ ∀ d ∈ blockDoms, clockDom d = some (clockOf h) → warm t d = false := by
  obtain ⟨-, -, hfailed, hline⟩ := clockFault_keeps h s
  obtain ⟨hcools, hcold⟩ := lockLost_cools h s
  have hwarmKept : ∀ d, warm (keepQueue s (lockLost h s)) d = warm (lockLost h s) d :=
    warm_of_doms (lockLost_params h s).symm rfl
  refine ⟨_, exec_pllLockLost hwarm, ?_, ?_, ?_, ?_, fun d hd hclock => (hwarmKept d).trans (hcold d hd hclock)⟩
  · exact (hwarmKept _).trans (Bool.eq_false_iff.mpr fun hw => Bool.eq_false_iff.mp (warm_clockLost h s) (hcools.warm _ hw))
  · have hpll : pllOf h (lockLost h s) = false :=
      Bool.eq_false_iff.mpr fun hw => Bool.eq_false_iff.mp (pllOf_clockLost h s) (hcools.pllOf h hw)
    cases h <;> exact hpll
  · exact (congrArg (fun f : Faults => f.pending.getLsbD 7) (lockLost_faults h s)).trans hline
  · exact (congrArg Faults.dieFailed (lockLost_faults h s)).trans hfailed

/-! ### The statement -/

/-- Settles O17: a lock by what follows it, which only asks for domains; its loss by the domains that it cools; a code by its case. -/
theorem clocksLockAndThrottle : Obligations.ClocksLockAndThrottle := by
  refine ⟨fun s => ⟨?lockWest, ?lockEast, pllLockLost_fails (h := .west), pllLockLost_fails (h := .east)⟩,
    fun s c => ⟨throttleChange_west_running, throttleChange_west_recorded, throttleChange_east_running, throttleChange_east_recorded,
      throttleChange_west_refused, throttleChange_east_refused, throttleChange_east_stops, throttleChange_east_waits,
      seamReopen_reopens, seamReopen_stays⟩⟩
  case lockWest =>
    intro hgnt hst
    obtain ⟨t, hexec, hkept, hwarm⟩ := pllLock_clocksKept (h := .west) hgnt hst
    obtain ⟨-, -, hpll, -⟩ := recordedCode_keeps (pllLocked .west s) .west
    exact ⟨t, hexec, hwarm, hkept.pllW.trans hpll, fun c => pllLock_west_code hkept⟩
  case lockEast =>
    intro hgnt hst
    obtain ⟨t, hexec, hkept, hwarm⟩ := pllLock_clocksKept (h := .east) hgnt hst
    obtain ⟨-, -, -, hpll⟩ := recordedCode_keeps (pllLocked .east s) .east
    exact ⟨t, hexec, hwarm, hkept.pllE.trans hpll, fun c => pllLock_east_code hkept hwarm⟩

end Sys2Proof.Machine
end

section
/-! RING_INJECT where two items that wait at a stop have one id (R255, R264, R271). -/

namespace Sys2Proof.Machine

/-! ### What an injection leaves -/

/-- The items at a stop that wait for the closed east half, one for each channel whose head for the ring is bound there. -/
def heldItems (s : State) (p r : Nat) : List Nat :=
  [0, 1, 2, 3, 4].filterMap (fun v => (ringHead s p r v).bind (fun h => if heldWest s h.1 then some h.1.id else none))

/-- The state in which a stop whose half is clocked injects: the held items have begun to wait and have raised a request for the east half. -/
def seamAsked (p r : Nat) (s : State) : State :=
  if !(heldItems s p r).isEmpty then wantEast (forEach (heldItems s p r) s (seamWait true)) else s

section
variable {s : State} {stop : Fin 49} {ring : Fin 8} {v n f : Nat} {it : RingItem}

theorem exec_ringInject_granted (hruns : stopRuns s stop.val = true)
    (hmay : (s.power.bankDrains || segFull s stop.val || !slotFor s stop.val ring.val) = false)
    (hgrant : ringGrant (ringReady s stop.val ring.val) (weights s) 7 (smGet (0, 0) s.fabric.turns (8 * stop.val + ring.val)).1
      (smGet (0, 0) s.fabric.turns (8 * stop.val + ring.val)).2 = some (v, n))
    (hhead : ringHead s stop.val ring.val v = some (it, f)) :
    exec (.ringInject stop ring) s = .next (keepQueue s (injectRing stop.val ring.val v n it f (seamAsked stop.val ring.val s))) := by
  have hexec : exec (.ringInject stop ring) s = execRingInject stop ring s := rfl
  simp only [hexec, execRingInject, hruns, hmay, hgrant, hhead, seamAsked, heldItems, Bool.and_true, Bool.not_true, Bool.false_eq_true, if_false]
  rfl

/-- An injected flit counts as sent of every item that has the injected item's id. -/
theorem mem_sent_of_mem_injectRing {stop ring : Nat} {x : RingItem} (hx : x ∈ (injectRing stop ring v n it f s).fabric.items)
    (hid : x.id = it.id) : f ∈ x.sent := by
  obtain ⟨y, -, rfl⟩ := List.mem_map.mp hx
  by_cases hy : y.id = it.id
  · simp [hy]
  · simp [hy] at hid

end

/-! ### Two items of one id -/

/-- An item of one flit that waits at stop 1, with id 1. -/
def waitingItem (dest vc : Nat) : RingItem :=
  { id := 1, src := 1, dests := [dest], vc := vc, flits := 1, sent := [], arrived := 0, void := false, again := false, waited := false,
    item := { src := .self 0, vc := vc, body := .mgmt msgZero }, leaves := [] }

/-- The west half is clocked and the seam closed; an item for the east half and one for the west half wait at stop 1 under one id. -/
def oneIdTwice : State :=
  { State.reset with
    power := { State.reset.power with doms := [(60, Dom.always)], eastClosed := true, eastStopped := true },
    fabric := { State.reset.fabric with items := [waitingItem 40 0, waitingItem 0 1] } }

theorem ringHead_oneIdTwice_east : ringHead oneIdTwice 1 4 0 = some (waitingItem 40 0, 0) := by decide

theorem ringHead_oneIdTwice_west : ringHead oneIdTwice 1 4 1 = some (waitingItem 0 1, 0) := by decide

theorem exec_ringInject_oneIdTwice : exec (.ringInject 1 4) oneIdTwice =
    .next (keepQueue oneIdTwice (injectRing 1 4 1 1 (waitingItem 0 1) 0 (seamAsked 1 4 oneIdTwice))) :=
  exec_ringInject_granted (by decide) (by decide) (by decide) ringHead_oneIdTwice_west

/-- Refutes O40: an injection marks its flit sent on every item with the injected item's id, and the statement speaks of every state, also of one
where two items have one id. There the flit of the item held for the closed east half counts as sent with that of the west one. -/
theorem not_ringStopsInjectWithCredits : ¬ Obligations.RingStopsInjectWithCredits := by
  unfold Obligations.RingStopsInjectWithCredits
  intro h
  obtain ⟨-, hclocked⟩ := h oneIdTwice 1 4
  obtain ⟨-, hheld, -⟩ := hclocked (by decide)
  obtain ⟨t, hexec, -, -, x, hx, hid, hunsent⟩ := hheld 0 (waitingItem 40 0) 0 rfl ringHead_oneIdTwice_east (by decide)
  rw [exec_ringInject_oneIdTwice] at hexec
  obtain rfl := Host.Outcome.next.inj hexec
  exact hunsent (mem_sent_of_mem_injectRing hx hid)

end Sys2Proof.Machine
end

section
/-! The queue of the ash log (R411, R413): where an event joins it, and what is left of one that finds no place. -/

namespace Sys2Proof.Machine

/-! ### An event that joins the queue of the log (R413) -/

theorem mem_insertEvent (e x : LogEvent) (q : List LogEvent) : x ∈ insertEvent e q ↔ x = e ∨ x ∈ q := by
  induction q with
  | nil => simp [insertEvent]
  | cons y q ih =>
    unfold insertEvent
    split
    · exact List.mem_cons
    · simp only [List.mem_cons, ih]
      exact or_left_comm

theorem length_insertEvent (e : LogEvent) (q : List LogEvent) : (insertEvent e q).length = q.length + 1 := by
  induction q with
  | nil => rfl
  | cons y q ih =>
    unfold insertEvent
    split
    · rfl
    · simp [ih]

section
variable {s : State} (e : LogEvent)

theorem pushEvent_disabled (hoff : s.log.disabled = true) : pushEvent e s = s := if_pos hoff

/-- With 63 events queued an event is discarded and counted (R413). -/
theorem pushEvent_full (hon : s.log.disabled = false) (hfull : 63 ≤ s.log.queue.length) :
    (pushEvent e s).log.queue = s.log.queue ∧ (pushEvent e s).log.dropped = satAdd s.log.dropped 1 ∧
      (pushEvent e s).log.lostCount = s.log.lostCount + 1 := by
  simp [pushEvent, hon, hfull]

theorem pushEvent_room (hon : s.log.disabled = false) (hroom : s.log.queue.length < 63) :
    pushEvent e s = { s with log := { s.log with queue := insertEvent e s.log.queue } } := by
  simp [pushEvent, hon, Nat.not_le.mpr hroom]

theorem pushEvent_keeps (s : State) : pushEvent e s = { s with log := (pushEvent e s).log } := by
  unfold pushEvent
  split
  · rfl
  · split <;> rfl

theorem mem_queue_pushEvent (hon : s.log.disabled = false) (hroom : s.log.queue.length < 63) : e ∈ (pushEvent e s).log.queue := by
  rw [pushEvent_room e hon hroom]
  exact (mem_insertEvent ..).mpr (.inl rfl)

end

/-! ### Logging an event (R411, R413, R296) -/

theorem Touches.eq_of_log {s u : State} (hs : Touches logTouch s u) :
    u = { s with log := u.log, time := { s.time with exceptionsNow := u.time.exceptionsNow }, free := u.free } := by
  have heq := (hs.mono (b := throttleTouch) rfl).eq_of_throttle
  rwa [hs.power rfl, hs.pins rfl] at heq

/-- The event of a code at a unit with its step context. -/
def eventOf (code unit a b : Nat) (s : State) : LogEvent :=
  { time := stampOf unit s, event := BitVec.ofNat 16 code, sev := BitVec.ofNat 3 (sevOf code), fwd := false, unit := BitVec.ofNat 8 unit,
    origin := s.kindle.instanceId, e2 := stepContext s, argA := BitVec.ofNat 32 a, argB := BitVec.ofNat 32 b, ctx := stepContext s }

theorem logEv_log (code unit a b : Nat) (s : State) : (logEv code unit a b s).log = (pushEvent (eventOf code unit a b s) s).log := by
  have hpush : ∀ t : State, t.log = s.log →
      (pushEvent (eventOf code unit a b s) t).log = (pushEvent (eventOf code unit a b s) s).log := by
    intro t ht
    simp only [pushEvent, ht]
    split
    · exact ht
    · split <;> rfl
  refine hpush _ ?_
  split
  · unfold noteTime
    split <;> rfl
  · rfl

theorem logEv_joins (code unit a b : Nat) (s : State) (hqueue : s.log.queue.length ≤ 63) :
    (logEv code unit a b s).log.queue.length ≤ 63 ∧
    (s.log.disabled = true → (logEv code unit a b s).log = s.log) ∧
    (s.log.disabled = false → s.log.queue.length = 63 → (logEv code unit a b s).log.queue = s.log.queue ∧
      (logEv code unit a b s).log.dropped = satAdd s.log.dropped 1 ∧ (logEv code unit a b s).log.lostCount = s.log.lostCount + 1) ∧
    (s.log.disabled = false → s.log.queue.length < 63 →
      (logEv code unit a b s).log.queue = insertEvent (eventOf code unit a b s) s.log.queue) := by
  rw [logEv_log]
  refine ⟨?bound, fun hoff => by rw [pushEvent_disabled _ hoff], fun hon hfull => pushEvent_full _ hon (Nat.le_of_eq hfull.symm),
    fun hon hroom => by rw [pushEvent_room _ hon hroom]⟩
  case bound =>
    cases hon : s.log.disabled with
    | true => rwa [pushEvent_disabled _ hon]
    | false =>
      obtain hfull | hroom := Nat.eq_or_lt_of_le hqueue
      · rwa [(pushEvent_full _ hon (Nat.le_of_eq hfull.symm)).1]
      · rw [pushEvent_room _ hon hroom, length_insertEvent]
        exact hroom

end Sys2Proof.Machine
end

section
/-! Setting and reading the tick, and the launch tick (R292, R298, R433): host writes at the root placement of SEAL_GROUP. -/

namespace Sys2Proof.Machine

/-! ### Host writes to the launch tick and to the tick (R292, R298) -/

/-- An ignored write of a live port: counted with its offset, and nothing else changes (R434). -/
theorem next_countIgnored (off : Nat) (s : State) : .next (countIgnored off (answered s)) = ignores s off := rfl

section
variable {s : State} (v : Word)

theorem writeLaunchTick_eq (s : State) : writeLaunchTick v s =
    if isCoordinator s = true ∧ s.step.state = .idle ∧ s.time.launchPending = false then { s with time := { s.time with launchTick := v } }
    else countIgnored 0x2030 s := by
  simp [writeLaunchTick, and_assoc]

theorem writeTickSet_eq (s : State) : writeTickSet v s =
    if s.time.state = .master ∧ isCoordinator s = true ∧ s.time.confirmedOnce = false then stepTick v 0 s else countIgnored 0x2010 s := by
  simp [writeTickSet, and_assoc]

/-- The parts that a host write to a register of the time unit may change. -/
def timeWriteTouch : Touch := { rp := true, time := true, log := true, free := true }

theorem writeLaunchTick_touch (s : State) : Touches timeWriteTouch s (writeLaunchTick v s) := by
  rw [writeLaunchTick_eq]
  split
  · exact (Touches.refl _ s).timeUpd rfl _
  · exact countIgnored_touch (.refl _ s) rfl _

theorem stepTick_touch (frac : BitVec 32) (s : State) : Touches timeWriteTouch s (stepTick v frac s) :=
  useFree_touch (pushEvent_touch ((Touches.refl _ s).timeUpd rfl _) rfl _) rfl

theorem writeTickSet_touch (s : State) : Touches timeWriteTouch s (writeTickSet v s) := by
  rw [writeTickSet_eq]
  split
  · exact stepTick_touch v 0 s
  · exact countIgnored_touch (.refl _ s) rfl _

theorem readTick_touch (s : State) : Touches timeWriteTouch s (readTick s) :=
  useFree_touch (((Touches.refl _ s).timeUpd rfl _).rpUpd rfl _) rfl

section
variable (hlive : portLive s = true)
include hlive

theorem exec_launchTickWrite : exec (.launchTickWrite v) s = .next (writeLaunchTick v (answered s)) :=
  done_hostWrite hlive (writeLaunchTick_touch v _)

theorem exec_tickSet : exec (.tickSet v) s = .next (writeTickSet v (answered s)) := done_hostWrite hlive (writeTickSet_touch v _)

theorem exec_tickRead : exec .tickRead s = .next (readTick (answered s)) := done_hostWrite hlive (readTick_touch _)

theorem launchTickWrite_taken (hroot : isCoordinator s = true) (hidle : s.step.state = .idle) (hnone : s.time.launchPending = false) :
    exec (.launchTickWrite v) s = .next { answered s with time := { s.time with launchTick := v } } := by
  rw [exec_launchTickWrite v hlive, writeLaunchTick_eq, if_pos ⟨hroot, hidle, hnone⟩]
  rfl

theorem launchTickWrite_ignored (h : isCoordinator s = false ∨ s.step.state ≠ .idle ∨ s.time.launchPending = true) :
    exec (.launchTickWrite v) s = ignores s 0x2030 := by
  rw [exec_launchTickWrite v hlive, writeLaunchTick_eq, if_neg, next_countIgnored]
  rintro ⟨hroot, hidle, hnone⟩
  obtain h | h | h := h
  · exact Bool.false_ne_true (h.symm.trans hroot)
  · exact h hidle
  · exact Bool.false_ne_true (hnone.symm.trans h)

theorem tickSet_taken (hmaster : s.time.state = .master) (hroot : isCoordinator s = true) (hfirst : s.time.confirmedOnce = false) :
    exec (.tickSet v) s = .next (stepTick v 0 (answered s)) := by
  rw [exec_tickSet v hlive, writeTickSet_eq, if_pos ⟨hmaster, hroot, hfirst⟩]

theorem tickSet_ignored (h : s.time.state ≠ .master ∨ isCoordinator s = false ∨ s.time.confirmedOnce = true) :
    exec (.tickSet v) s = ignores s 0x2010 := by
  rw [exec_tickSet v hlive, writeTickSet_eq, if_neg, next_countIgnored]
  rintro ⟨hmaster, hroot, hfirst⟩
  obtain h | h | h := h
  · exact h hmaster
  · exact Bool.false_ne_true (h.symm.trans hroot)
  · exact Bool.false_ne_true (hfirst.symm.trans h)

end

end

/-! ### A tick that is set (R298) -/

/-- The event of a tick that is set, with the old and the new value. -/
def tickSetEvent (tick : Word) (s : State) : LogEvent :=
  { time := stampOf unitEmber { s with time := { s.time with tick := tick, frac := 0 } }, event := 0x0201, sev := 0, fwd := false, unit := 0x53,
    origin := s.kindle.instanceId, e2 := s.time.tick, argA := BitVec.ofNat 32 (tick.toNat / 2 ^ 32), argB := BitVec.ofNat 32 tick.toNat,
    ctx := stepContext s }

/-- The time unit with another tick: what was exchanged under the old one is forgotten (log 39). -/
def retimed (tick : Word) (t : Time) : Time :=
  { t with tick := tick, frac := 0, exch := t.exch.map (fun x => { x with sent := [], rcvd := [] }) }

theorem stepTick_eq (tick : Word) (s : State) :
    stepTick tick 0 s = useFree (pushEvent (tickSetEvent tick s) { s with time := retimed tick s.time }) := rfl

theorem stepTick_keeps (tick : Word) (s : State) : stepTick tick 0 s =
    { s with time := retimed tick s.time, log := (stepTick tick 0 s).log, free := (stepTick tick 0 s).free } := by
  rw [stepTick_eq, pushEvent_keeps]
  rfl

theorem logged_stepTick {tick : Word} {s : State} (hon : s.log.disabled = false) (hroom : s.log.queue.length < 63) :
    tickSetEvent tick s ∈ (stepTick tick 0 s).log.queue := by
  rw [stepTick_eq]
  exact mem_queue_pushEvent _ hon hroom

theorem exch_retimed {tick : Word} {t : Time} {x : Exch} (hx : x ∈ (retimed tick t).exch) : x.sent = [] ∧ x.rcvd = [] := by
  obtain ⟨y, -, rfl⟩ := List.mem_map.mp hx
  exact ⟨rfl, rfl⟩

theorem tickSet_sets {s : State} (v : Word) (hlive : portLive s = true) (hmaster : s.time.state = .master)
    (hroot : isCoordinator s = true) (hfirst : s.time.confirmedOnce = false) :
    ∃ t, exec (.tickSet v) s = .next t ∧ t.time = retimed v s.time ∧
      (s.log.disabled = false → s.log.queue.length < 63 → tickSetEvent v (answered s) ∈ t.log.queue) ∧
      t = { answered s with time := retimed v s.time, log := t.log, free := t.free } :=
  have hkeeps := stepTick_keeps v (answered s)
  ⟨_, tickSet_taken v hlive hmaster hroot hfirst, congrArg State.time hkeeps, logged_stepTick (s := answered s), hkeeps⟩

/-! ### A read of the tick (R433) -/

theorem tickRead_latches {s : State} (hlive : portLive s = true) : ∃ t, exec .tickRead s = .next t ∧ t.rp.rdata = s.time.tick ∧
    t.rp.err = false ∧ t.time.latchFrac = s.time.frac ∧ t.time.latchValid = clockRuns s false ∧
    (clockRuns s false = false → t.time.latchSub = 0) ∧
    t = { s with rp := { s.rp with rdata := s.time.tick, err := false, ack := true }, free := t.free,
                 time := { s.time with latchFrac := t.time.latchFrac, latchSub := t.time.latchSub, latchValid := t.time.latchValid } } := by
  refine ⟨_, exec_tickRead hlive, rfl, rfl, rfl, rfl, fun hstopped => ?_, rfl⟩
  have hstoppedAnswered : clockRuns (answered s) false = false := hstopped
  simp [readTick, useFree, answer, hstoppedAnswered]

/-- Settles O24: each write by its register's rule on the answered state, and the read by what it latches. -/
theorem hostReadsAndSetsTheTick : Obligations.HostReadsAndSetsTheTick := by
  refine fun s v hlive => ⟨launchTickWrite_taken v hlive, launchTickWrite_ignored v hlive, ?sets, tickSet_ignored v hlive,
    tickRead_latches hlive⟩
  case sets =>
    intro hmaster hroot hfirst
    obtain ⟨t, hexec, htime, hevent, hkeeps⟩ := tickSet_sets v hlive hmaster hroot hfirst
    refine ⟨t, hexec, ?_⟩
    rw [htime]
    exact ⟨rfl, rfl, rfl, fun x hx => exch_retimed hx, fun hon hroom => ⟨_, hevent hon hroom, rfl, rfl, rfl, rfl⟩,
      fun hon hroom => ⟨_, hevent hon hroom, rfl, rfl⟩, hkeeps⟩

end Sys2Proof.Machine
end

section
/-! LOG_WRITE (R411, R413 to R415): the event at the head of the queue becomes the next entry of the log, or the last entry counts it. -/

namespace Sys2Proof.Machine

/-! ### Reading what was put in a map -/

theorem smGet_smPut_same {α : Type} (d : α) (m : SMap α) (k : Nat) (v : α) : smGet d (smPut m k v) k = v := by
  induction m with
  | nil => simp [smPut, smGet]
  | cons p m ih =>
    unfold smPut
    split
    · simp [smGet]
    · split
      · simp [smGet]
      · next hne => simp [smGet, hne, ih]

theorem smGet_smPut_ne {α : Type} (d : α) (m : SMap α) {k j : Nat} (v : α) (h : j ≠ k) : smGet d (smPut m k v) j = smGet d m j := by
  induction m with
  | nil => simp [smPut, smGet, h]
  | cons p m ih =>
    unfold smPut
    split
    · simp [smGet, h]
    · split
      · next heq => simp [smGet, h, ← heq]
      · simp [smGet, ih]

/-! ### A field of a word that has been set -/

theorem extractLsb'_setField {lo len : Nat} (w : Word) (v : Nat) (h : lo + len ≤ 64) :
    (setField w lo len v).extractLsb' lo len = BitVec.ofNat len v := by
  refine BitVec.eq_of_getLsbD_eq fun i hi => ?_
  have hword : lo + i < 64 := by omega
  simp only [setField, BitVec.getLsbD_extractLsb', BitVec.getLsbD_or, BitVec.getLsbD_and, BitVec.getLsbD_not, getLsbD_putField,
    Nat.testBit_two_pow_sub_one, BitVec.getLsbD_ofNat]
  simp [hi, hword]

/-! ### What follows the writing of an entry -/

/-- The entries of the log with their sequence count, the step and the kiln are as they were. -/
structure EntriesKept (s u : State) : Prop where
  entries : u.log.entries = s.log.entries
  writeSeq : u.log.writeSeq = s.log.writeSeq
  step : u.step = s.step
  kiln : u.kiln = s.kiln

theorem EntriesKept.refl (s : State) : EntriesKept s s := ⟨rfl, rfl, rfl, rfl⟩

theorem EntriesKept.trans {s t u : State} (h : EntriesKept s t) (k : EntriesKept t u) : EntriesKept s u :=
  ⟨k.entries.trans h.entries, k.writeSeq.trans h.writeSeq, k.step.trans h.step, k.kiln.trans h.kiln⟩

/-- Traffic writes nothing to the log. -/
theorem EntriesKept.of_touch {T : Touch} {s u : State} (h : Touches T s u) (hlog : T.log = false) (hstep : T.step = false)
    (hearly : T.early = false) (hkiln : T.kiln = false) (hnodes : T.nodes = false) : EntriesKept s u :=
  ⟨by rw [h.log hlog], by rw [h.log hlog], h.step hstep hearly, h.kiln hkiln hnodes⟩

theorem pushEvent_entriesKept (e : LogEvent) (s : State) : EntriesKept s (pushEvent e s) := by
  unfold pushEvent
  split
  · exact .refl s
  · split
    · exact ⟨rfl, rfl, rfl, rfl⟩
    · exact ⟨rfl, rfl, rfl, rfl⟩

theorem logEv_entriesKept (code unit a b : Nat) (s : State) : EntriesKept s (logEv code unit a b s) :=
  have hpush := pushEvent_entriesKept (eventOf code unit a b s) s
  ⟨by rw [logEv_log, hpush.entries], by rw [logEv_log, hpush.writeSeq], logEv_step .., logEv_kiln ..⟩

theorem capture_entriesKept (f : ArmedFreeze) (late : Option Nat) (s : State) : EntriesKept s (capture f late s) := by
  unfold capture
  dsimp only
  split
  · exact .refl s
  · split
    · exact logEv_entriesKept ..
    · refine .trans ?_ (logEv_entriesKept ..)
      exact ⟨rfl, rfl, rfl, rfl⟩

/-- The parts that a management message may change. -/
def mgmtTouch : Touch := { links := true, inbox := true, fabric := true }

theorem route_entriesKept (dest : Nat) (m : Msg) (s : State) : EntriesKept s (route dest m s) :=
  .of_touch (route_touch (.refl mgmtTouch s) rfl dest m) rfl rfl rfl rfl rfl

theorem passForward_entriesKept (dest : Nat) (m : Msg) (s : State) : EntriesKept s (passForward dest m s) := by
  unfold passForward
  split
  · exact route_entriesKept dest m s
  · exact ⟨rfl, rfl, rfl, rfl⟩

theorem forwardEntry_entriesKept (e : LogEvent) (x : LogEntry) (s : State) : EntriesKept s (forwardEntry e x s) := by
  unfold forwardEntry
  dsimp only
  split
  · exact .refl s
  · split
    · exact (passForward_entriesKept _ _ s).trans ⟨rfl, rfl, rfl, rfl⟩
    · exact passForward_entriesKept _ _ s

theorem triggerOn_entriesKept (e : LogEvent) (s : State) : EntriesKept s (triggerOn e s) := by
  unfold triggerOn
  dsimp only
  split
  · exact .refl s
  · split
    · exact capture_entriesKept _ _ s
    · exact (capture_entriesKept _ _ s).trans (route_entriesKept _ _ _)

theorem queueLost_keeps (s : State) : queueLost s = { s with log := (queueLost s).log } := by
  unfold queueLost
  split
  · rfl
  · split <;> rfl

theorem queueLost_entriesKept (s : State) : EntriesKept s (queueLost s) := by
  unfold queueLost
  split
  · exact .refl s
  · split
    · exact .refl s
    · exact ⟨rfl, rfl, rfl, rfl⟩

/-! ### The three cases of LOG_WRITE -/

theorem logSlot_of_entries {s u : State} (h : u.log.entries = s.log.entries) (k : Nat) : logSlot u k = logSlot s k := by
  rw [logSlot, h, logSlot]

section
variable {s : State} {e : LogEvent} {q : List LogEvent}

theorem logWrite_idle (h : s.log.filling = true ∨ s.log.disabled = true ∨ logStopped s = true ∨ s.log.queue = []) : logWrite s = s := by
  unfold logWrite
  split
  · rfl
  · next hwrites =>
    obtain h | h | h | h := h
    · simp [h] at hwrites
    · simp [h] at hwrites
    · simp [h] at hwrites
    · rw [h]

/-- The log with its next entry written (R413). -/
def entryWritten (e : LogEvent) (q : List LogEvent) (s : State) : State :=
  { s with log := { s.log with
    queue := q, entries := smPut s.log.entries (s.log.writeSeq.toNat % 32768) (entryOf e s.log.writeSeq.toNat),
    writeSeq := s.log.writeSeq + 1 } }

theorem writeEntry_entriesKept (e : LogEvent) (q : List LogEvent) (s : State) :
    EntriesKept (entryWritten e q s) (writeEntry e { s with log := { s.log with queue := q } }) := by
  unfold writeEntry
  dsimp only
  refine .trans ?_ (triggerOn_entriesKept _ _)
  refine .trans ?_ (forwardEntry_entriesKept _ _ _)
  exact ⟨rfl, rfl, rfl, rfl⟩

/-- The last entry with its REPEAT counted on (R414). -/
def repeatCounted (x : LogEntry) : LogEntry := { x with e1 := setField x.e1 40 4 (fieldOf x.e1 40 4 + 1) }

theorem repeatCounted_counts (x : LogEntry) : (repeatCounted x).e0 = x.e0 ∧
    (repeatCounted x).e1.extractLsb' 40 4 = x.e1.extractLsb' 40 4 + 1 := by
  refine ⟨rfl, ?_⟩
  rw [repeatCounted, extractLsb'_setField _ _ (by decide), BitVec.ofNat_add, ofNat_fieldOf]
  rfl

/-- The last entry written counts another event (R414). -/
def entryRepeated (q : List LogEvent) (s : State) : State :=
  { s with log := { s.log with queue := q, entries := smPut s.log.entries (lastSlot s) (repeatCounted (logSlot s (lastSlot s))) } }

variable (hfilled : s.log.filling = false) (hon : s.log.disabled = false) (hgoes : logStopped s = false) (hqueue : s.log.queue = e :: q)
include hfilled hon hgoes hqueue

theorem logWrite_head : logWrite s =
    if s.log.writeSeq ≠ 0 ∧ coalesces e (logSlot s (lastSlot s)) = true then queueLost (entryRepeated q s)
    else queueLost (writeEntry e { s with log := { s.log with queue := q } }) := by
  have hwrites : ¬(s.log.filling || s.log.disabled || logStopped s) = true := by simp [hfilled, hon, hgoes]
  rw [logWrite, if_neg hwrites, hqueue]
  rfl

theorem logWrite_repeats (hlast : s.log.writeSeq ≠ 0) (hsame : coalesces e (logSlot s (lastSlot s)) = true) :
    logWrite s = queueLost (entryRepeated q s) := by
  rw [logWrite_head hfilled hon hgoes hqueue, if_pos ⟨hlast, hsame⟩]

theorem logWrite_writes (hnew : s.log.writeSeq = 0 ∨ coalesces e (logSlot s (lastSlot s)) = false) :
    logWrite s = queueLost (writeEntry e { s with log := { s.log with queue := q } }) := by
  rw [logWrite_head hfilled hon hgoes hqueue, if_neg]
  rintro ⟨hlast, hsame⟩
  exact hnew.elim hlast fun h => Bool.false_ne_true (h.symm.trans hsame)

end

/-! ### LOG_WRITE -/

theorem exec_logWrite (s : State) : exec .logWrite s = .next (keepQueue s (logWrite s)) := rfl

section
variable {s : State} {e : LogEvent} {q : List LogEvent}

theorem exec_logWrite_idle (h : s.log.filling = true ∨ s.log.disabled = true ∨ logStopped s = true ∨ s.log.queue = []) :
    exec .logWrite s = .next s := by
  rw [exec_logWrite, logWrite_idle h, keepQueue_self]

variable (hfilled : s.log.filling = false) (hon : s.log.disabled = false) (hgoes : logStopped s = false) (hqueue : s.log.queue = e :: q)
include hfilled hon hgoes hqueue

theorem exec_logWrite_new (hnew : s.log.writeSeq = 0 ∨ coalesces e (logSlot s (lastSlot s)) = false) :
    ∃ t, exec .logWrite s = .next t ∧ t.log.writeSeq = s.log.writeSeq + 1 ∧
      logSlot t (s.log.writeSeq.toNat % 32768) = entryOf e s.log.writeSeq.toNat ∧
      (∀ k, k ≠ s.log.writeSeq.toNat % 32768 → logSlot t k = logSlot s k) ∧ t.step = s.step ∧ t.kiln = s.kiln := by
  have hkept : EntriesKept (entryWritten e q s) (keepQueue s (logWrite s)) := by
    rw [logWrite_writes hfilled hon hgoes hqueue hnew]
    exact ((writeEntry_entriesKept e q s).trans (queueLost_entriesKept _)).trans ⟨rfl, rfl, rfl, rfl⟩
  refine ⟨_, exec_logWrite s, hkept.writeSeq, ?written, fun k hk => ?others, hkept.step, hkept.kiln⟩
  all_goals rw [logSlot_of_entries hkept.entries]
  case written => exact smGet_smPut_same ..
  case others => exact smGet_smPut_ne _ _ _ hk

theorem exec_logWrite_repeat (hlast : s.log.writeSeq ≠ 0) (hsame : coalesces e (logSlot s (lastSlot s)) = true) :
    ∃ t, exec .logWrite s = .next t ∧ t.log.writeSeq = s.log.writeSeq ∧
      logSlot t (lastSlot s) = repeatCounted (logSlot s (lastSlot s)) ∧ t = { s with log := t.log } := by
  have hwrite := logWrite_repeats hfilled hon hgoes hqueue hlast hsame
  have hkept : EntriesKept (entryRepeated q s) (keepQueue s (logWrite s)) := by
    rw [hwrite]
    exact (queueLost_entriesKept _).trans ⟨rfl, rfl, rfl, rfl⟩
  refine ⟨_, exec_logWrite s, hkept.writeSeq, ?counted, ?frame⟩
  case counted => exact (logSlot_of_entries hkept.entries _).trans (smGet_smPut_same ..)
  case frame =>
    rw [hwrite, queueLost_keeps]
    rfl

end

/-- Settles O27: LOG_WRITE by its three cases, and a logged event by whether the log works and has a place for it. -/
theorem eventsJoinTheLog : Obligations.EventsJoinTheLog := by
  refine ⟨fun s => ⟨exec_logWrite_idle, fun e q hfilled hon hgoes hqueue => ⟨exec_logWrite_new hfilled hon hgoes hqueue, ?repeats⟩⟩,
    fun s code unit a b hqueue => ?joins⟩
  case repeats =>
    intro hlast hsame
    obtain ⟨t, hexec, hseq, hslot, hframe⟩ := exec_logWrite_repeat hfilled hon hgoes hqueue hlast hsame
    obtain ⟨htime, hcount⟩ := repeatCounted_counts (logSlot s (lastSlot s))
    exact ⟨t, hexec, hseq, (congrArg LogEntry.e0 hslot).trans htime,
      (congrArg (fun x : LogEntry => x.e1.extractLsb' 40 4) hslot).trans hcount, hframe⟩
  case joins =>
    obtain ⟨hbound, hoff, hfull, hroom⟩ := logEv_joins code unit a b s hqueue
    refine ⟨hbound, (logEv_touch (.refl logTouch s) rfl code unit a b).eq_of_log, hoff, hfull, fun hon hfree => ?room⟩
    rw [hroom hon hfree]
    exact ⟨length_insertEvent .., fun e he => (mem_insertEvent ..).mpr (.inr he), _, (mem_insertEvent ..).mpr (.inl rfl), rfl, rfl, rfl, rfl⟩

end Sys2Proof.Machine
end

section
/-! The messages of the time exchange (R281, R282): sending and stamping them changes the exchange state, and nothing else of the time unit. -/

namespace Sys2Proof.Machine

/-- The parts that an exchange message that is sent or stamped may change. -/
def exchTouch : Touch := { time := true, ctr := true, free := true, links := true, inbox := true, fabric := true }

/-- Of the time unit the exchange state alone may have changed, and of the rest what carries and counts messages. -/
structure ExchangeOnly (s u : State) : Prop where
  touch : Touches exchTouch s u
  time : u.time = { s.time with exch := u.time.exch }

namespace ExchangeOnly

theorem refl (s : State) : ExchangeOnly s s := ⟨.refl _ s, rfl⟩

theorem trans {s t u : State} (h : ExchangeOnly s t) (k : ExchangeOnly t u) : ExchangeOnly s u :=
  ⟨h.touch.trans k.touch, k.time.trans (congrArg (fun x : Time => { x with exch := u.time.exch }) h.time)⟩

section
variable {s u : State} (hs : ExchangeOnly s u)
include hs

theorem forEach {α : Type} (l : List α) (f : α → State → State) (hf : ∀ a v, ExchangeOnly s v → ExchangeOnly s (f a v)) :
    ExchangeOnly s (forEach l u f) := by
  unfold Machine.forEach
  induction l generalizing u with
  | nil => exact hs
  | cons a l ih => exact ih (hf a u hs)

/-- What leaves the time unit alone. -/
theorem of_touch {T : Touch} {v : State} (hv : Touches T u v) (hle : T.le exchTouch = true) (htime : T.time = false) (hexc : T.exc = false) :
    ExchangeOnly s v :=
  hs.trans ⟨hv.mono hle, by rw [hv.time htime hexc]⟩

theorem setExch (k f : Nat) (g : Exch → Exch) : ExchangeOnly s (setExch k f g u) := hs.trans ⟨(Touches.refl _ u).timeUpd rfl _, rfl⟩

theorem sendExchange (k f : Nat) (left : Option Word) : ExchangeOnly s (sendExchange k f left u) := by
  unfold Machine.sendExchange
  dsimp only
  split
  · exact hs
  · generalize hset : Machine.setExch k f _ u = v
    have hv : ExchangeOnly s v := hset ▸ hs.setExch k f _
    have hcount : Touches { ctr := true, links := true, inbox := true, fabric := true } v (linkCtr k 0x120 1 v) :=
      linkCtr_touch (.refl _ v) rfl _ _ _
    split
    · exact hv.of_touch (setLink_touch hcount rfl _ _) rfl rfl rfl
    · exact hv.of_touch (mgmtOn_touch hcount rfl _ _ _) rfl rfl rfl

theorem stampSent (k f : Nat) (seq : BitVec 32) : ExchangeOnly s (stampSent k f seq u) := by
  unfold Machine.stampSent
  dsimp only
  split
  · exact (hs.setExch k f _).of_touch (useFree_touch (.refl { free := true } _) rfl) rfl rfl rfl
  · exact hs

theorem stampLeft (k : Nat) (frames : List EthFrame) : ExchangeOnly s (stampLeft k frames u) := by
  unfold Machine.stampLeft
  split
  · exact hs.forEach _ _ fun _ _ hv => hv.stampSent k _ _
  · exact hs.forEach _ _ fun _ _ hv => hv.stampSent k 0 _

theorem announce : ExchangeOnly s (announce u) :=
  hs.forEach _ _ fun p _ hv => iteInduction (fun _ => hv.sendExchange p.1 p.2 none) fun _ => hv

end

end ExchangeOnly

end Sys2Proof.Machine
end

section
/-! LAUNCH_ARM (R292, R293): the reason that refuses a launch, and what an accepted one leaves. -/

namespace Sys2Proof.Machine

/-! ### The check that a launch feeds (R181, R293) -/

/-- The launch with its tick and generation, and the step that it starts, are as they were. -/
structure LaunchKept (s u : State) : Prop where
  launchTick : u.time.launchTick = s.time.launchTick
  launchGen : u.time.launchGen = s.time.launchGen
  launchPending : u.time.launchPending = s.time.launchPending
  refuse : u.time.refuse = s.time.refuse
  launch : u.step.launch = s.step.launch
  state : u.step.state = s.step.state
  number : u.step.number = s.step.number

namespace LaunchKept

theorem refl (s : State) : LaunchKept s s := ⟨rfl, rfl, rfl, rfl, rfl, rfl, rfl⟩

theorem trans {s t u : State} (h : LaunchKept s t) (k : LaunchKept t u) : LaunchKept s u :=
  ⟨k.launchTick.trans h.launchTick, k.launchGen.trans h.launchGen, k.launchPending.trans h.launchPending, k.refuse.trans h.refuse,
    k.launch.trans h.launch, k.state.trans h.state, k.number.trans h.number⟩

theorem of_touch {T : Touch} {s u : State} (h : Touches T s u) (htime : T.time = false) (hstep : T.step = false) : LaunchKept s u :=
  have ht := h.timeDim htime
  have hst := h.stepDim hstep
  ⟨(congrArg Time.launchTick ht :), (congrArg Time.launchGen ht :), (congrArg Time.launchPending ht :), (congrArg Time.refuse ht :),
    (congrArg Step.launch hst :), (congrArg Step.state hst :), (congrArg Step.number hst :)⟩

theorem of_exchange {s u : State} (h : ExchangeOnly s u) : LaunchKept s u := by
  have hst := h.touch.step rfl rfl
  refine ⟨?_, ?_, ?_, ?_, by rw [hst], by rw [hst], by rw [hst]⟩
  all_goals rw [h.time]

end LaunchKept

/-- The parts that a RE-FORM of a restored record may change. -/
def reformTouch : Touch := { logTouch with kiln := true, tables := true, faults := true }

theorem resumeReforms_touch (s : State) : Touches reformTouch s (resumeReforms s) := by
  refine forEach_touch (.refl _ s) _ _ fun d v hv => ?_
  have hremoved : Touches reformTouch s (removeIndex d v) := 
    ((hv.kilnUpd rfl (removeIndex d v).kiln).tablesUpd rfl (removeIndex d v).tables).faultsUpd rfl (removeIndex d v).faults
  have hlogged := logEv_touch (hremoved.faultsUpd rfl { (removeIndex d v).faults with
    offers := (removeIndex d v).faults.offers.filter (fun o => o.die != d),
    restoring := (removeIndex d v).faults.restoring.filter (· != d) }) rfl 0x0805 unitPE d (groupsHolding v d).length
  exact forEach_touch (forEach_touch hlogged _ _ fun _ _ hw => logEv_touch hw rfl _ _ _ _) _ _ fun _ _ hw => logEv_touch hw rfl _ _ _ _

theorem feedCheck_launchKept (s : State) : LaunchKept s (feedCheck s) := by
  have hreformed := LaunchKept.of_touch (resumeReforms_touch s) rfl rfl
  unfold feedCheck
  dsimp only
  split
  · exact .refl s
  · split
    · exact hreformed.trans (.of_touch (logEv_touch (.refl logTouch _) rfl _ _ _ _) rfl rfl)
    · refine hreformed.trans (.trans ?_ (.of_touch (feedSeal_touch (.refl mgmtTouch _) rfl _ _) rfl rfl))
      exact ⟨rfl, rfl, rfl, rfl, rfl, rfl, rfl⟩

theorem takeLaunch_takes (tick : Word) (gen : BitVec 16) (s : State) :
    (takeLaunch tick gen s).time.launchPending = true ∧ (takeLaunch tick gen s).time.refuse = s.time.refuse ∧
      (takeLaunch tick gen s).time.launchGen = gen ∧ (takeLaunch tick gen s).time.launchTick = tick ∧
      (takeLaunch tick gen s).step.launch = tick ∧ (takeLaunch tick gen s).step.state = s.step.state ∧
      (takeLaunch tick gen s).step.number = s.step.number :=
  have hkept : LaunchKept _ (takeLaunch tick gen s) := feedCheck_launchKept _
  ⟨hkept.launchPending, hkept.refuse, hkept.launchGen, hkept.launchTick, hkept.launch, hkept.state, hkept.number⟩

/-! ### The reason that refuses a launch (R292) -/

/-- The launch tick is nearer than LAUNCH_LEAD_MIN. -/
def launchNear (s : State) : Prop := s.time.launchTick.toNat < s.time.tick.toNat + policy s (fun p => p.launchLeadMin) 50000

section
variable {s : State}

theorem launchReason_notMaster (h : s.time.state ≠ .master) : launchReason s = 1 := if_pos h

variable (hmaster : s.time.state = .master)
include hmaster

theorem launchReason_unconfirmed (h : s.time.sysConfirm = false) : launchReason s = 2 := by simp [launchReason, hmaster, h]

variable (hconfirm : s.time.sysConfirm = true)
include hconfirm

theorem launchReason_busy (h : s.step.state ≠ .idle ∨ isReady s = false) : launchReason s = 3 := by
  simp [launchReason, hmaster, hconfirm, h]

variable (hidle : s.step.state = .idle) (hready : isReady s = true)
include hidle hready

theorem launchReason_near (h : launchNear s) : launchReason s = 4 := by
  rw [launchNear] at h
  simp [launchReason, hmaster, hconfirm, hidle, hready, h]

variable (hfar : ¬launchNear s)
include hfar

theorem launchReason_pending (h : s.time.launchPending = true) : launchReason s = 5 := by
  rw [launchNear] at hfar
  simp [launchReason, hmaster, hconfirm, hidle, hready, hfar, h]

variable (hnone : s.time.launchPending = false)
include hnone

theorem launchReason_lastStep (h : s.step.number = 0xFFFFFFFFFFFF) : launchReason s = 6 := by
  rw [launchNear] at hfar
  simp [launchReason, hmaster, hconfirm, hidle, hready, hfar, hnone, stepNo, h]

theorem launchReason_none (h : s.step.number ≠ 0xFFFFFFFFFFFF) : launchReason s = 0 := by
  have hstep : stepNo s ≠ 0xFFFFFFFFFFFF := fun heq => h (BitVec.eq_of_toNat_eq heq)
  rw [launchNear] at hfar
  simp [launchReason, hmaster, hconfirm, hidle, hready, hfar, hnone, hstep]

end

/-! ### LAUNCH_ARM -/

/-- A state within some parts of another has its queue and its integration parameters. -/
theorem keepQueue_of_touch {T : Touch} {s u : State} (h : Touches T s u) : keepQueue s u = u := Host.Outcome.next.inj (done_eq h)

/-- What a refusal at the root placement leaves: the reason recorded and logged, and the write answered. -/
def launchRefused (r : Nat) (s : State) : State :=
  logEv 0x0207 0x53 r 0 { answered s with time := { s.time with refuse := BitVec.ofNat 4 r } }

theorem launchRefused_touch (r : Nat) (s : State) : Touches { logTouch with rp := true, time := true } s (launchRefused r s) :=
  logEv_touch (((Touches.refl _ s).rpUpd rfl (answered s).rp).timeUpd rfl _) rfl _ _ _ _

section
variable {s : State} {v : Word} (hlive : portLive s = true)
include hlive

theorem exec_launchArm : exec (.launchArm v) s = .next (keepQueue s (writeLaunchCtrl v (answered s))) :=
  congrArg (done s) (hostWrite_answered s _ hlive)

theorem launchArm_zero (hv : v.getLsbD 0 = false) : exec (.launchArm v) s = .next (answered s) := by
  rw [exec_launchArm hlive, writeLaunchCtrl, bitOf_eq, hv]
  rfl

variable (hv : v.getLsbD 0 = true)
include hv

theorem launchArm_ignored (hroot : isCoordinator s = false) : exec (.launchArm v) s = ignores s 0x2038 := by
  have hanswered : isCoordinator (answered s) = false := hroot
  rw [exec_launchArm hlive, writeLaunchCtrl, bitOf_eq, hv, hanswered]
  rfl

variable (hroot : isCoordinator s = true)
include hroot

theorem exec_launchArm_root : exec (.launchArm v) s = .next (keepQueue s (armLaunch (answered s))) := by
  have hanswered : isCoordinator (answered s) = true := hroot
  rw [exec_launchArm hlive, writeLaunchCtrl, bitOf_eq, hv, hanswered]
  rfl

theorem launchArm_refused {r : Nat} (hr : r ≠ 0) (hreason : launchReason s = r) : exec (.launchArm v) s =
    .next (launchRefused r s) := by
  have hanswered : launchReason (answered s) = r := hreason
  rw [exec_launchArm_root hlive hv hroot, armLaunch, hanswered, if_neg hr]
  exact congrArg _ (keepQueue_of_touch (launchRefused_touch r s))

theorem launchArm_accepted (hreason : launchReason s = 0) : ∃ t, exec (.launchArm v) s = .next t ∧ t.time.launchPending = true ∧
    t.time.refuse = 0 ∧ t.time.launchGen = s.time.launchGen + 1 ∧ t.time.launchTick = s.time.launchTick ∧
    t.step.launch = s.time.launchTick ∧ t.step.state = s.step.state ∧ t.step.number = s.step.number := by
  have hanswered : launchReason (answered s) = 0 := hreason
  rw [exec_launchArm_root hlive hv hroot, armLaunch, hanswered, if_pos rfl]
  obtain ⟨hpending, hrefuse, hgen, htick, hlaunch, hstate, hnumber⟩ :=
    takeLaunch_takes s.time.launchTick (s.time.launchGen + 1) { answered s with time := { s.time with refuse := 0 } }
  have hkept := LaunchKept.of_exchange (ExchangeOnly.refl
    (takeLaunch s.time.launchTick (s.time.launchGen + 1) { answered s with time := { s.time with refuse := 0 } })).announce
  exact ⟨_, rfl, hkept.launchPending.trans hpending, hkept.refuse.trans hrefuse, hkept.launchGen.trans hgen, hkept.launchTick.trans htick,
    hkept.launch.trans hlaunch, hkept.state.trans hstate, hkept.number.trans hnumber⟩

end

/-- Settles O25: the reason is the first of the chain that applies, and a launch with none is taken and announced. -/
theorem launchIsArmedOrRefusedWithItsReason : Obligations.LaunchIsArmedOrRefusedWithItsReason := by
  intro s v hlive
  refine ⟨launchArm_zero hlive, launchArm_ignored hlive, fun hv hroot => ?_⟩
  have hrefused : ∀ {r : Nat}, r ≠ 0 → launchReason s = r → exec (.launchArm v) s = .next (launchRefused r s) :=
    launchArm_refused hlive hv hroot
  refine ⟨fun h => hrefused (by decide) (launchReason_notMaster h), fun hmaster h => hrefused (by decide) (launchReason_unconfirmed hmaster h),
    fun hmaster hconfirm h => hrefused (by decide) (launchReason_busy hmaster hconfirm h), fun hmaster hconfirm hidle hready =>
      ⟨fun hnear => hrefused (by decide) (launchReason_near hmaster hconfirm hidle hready hnear), fun hfar h =>
        hrefused (by decide) (launchReason_pending hmaster hconfirm hidle hready hfar h), fun hfar hnone h =>
          hrefused (by decide) (launchReason_lastStep hmaster hconfirm hidle hready hfar hnone h), fun hfar hnone h => ?accepted⟩⟩
  case accepted =>
    obtain ⟨t, hexec, hpending, hrefuse, hgen, htick, hlaunch, hstate, hnumber⟩ :=
      launchArm_accepted hlive hv hroot (launchReason_none hmaster hconfirm hidle hready hfar hnone h)
    exact ⟨t, hexec, hpending, hrefuse, hgen, htick, hlaunch, hstate.trans hidle, hnumber⟩

end Sys2Proof.Machine
end

section
/-! What an edge of EMBER_CLK does beside the time unit (log 5): the links, the rings, banking and the start of a kindling leave it alone but
for the count of exceptions. -/

namespace Sys2Proof.Machine

/-- Every part but the time unit, of which the count of exceptions alone. -/
def edgeTouch : Touch :=
  { pins := true, rp := true, log := true, freeze := true, inject := true, kindle := true, image := true, power := true, step := true,
    faults := true, kiln := true, leaves := true, shadows := true, links := true, fabric := true, tables := true, ctr := true, inbox := true,
    free := true, exc := true, early := true, nodes := true }

theorem clearWires_touch {T : Touch} {s u : State} (hs : Touches T s u) (h : T.links = true) : Touches T s (clearWires u) :=
  forEach_touch hs _ _ fun _ _ hv => setLink_touch hv h _ _

/-! ### What waited for a link, and spares that take over (R209, R244, R246) -/

section
variable {s u : State} (hs : Touches edgeTouch s u)
include hs

theorem unpark_touch : Touches edgeTouch s (unpark u) := by
  refine forEach_touch (hs.fabricUpd rfl { u.fabric with parked := [] }) _ _ fun p v hv => ?_
  split
  · exact sendInst_touch hv rfl _ _ _ _ _ _
  · exact mgmtTo_touch hv rfl _ _ _
  · exact ctrlTo_touch hv rfl _ _ _
  · exact hv

theorem pushAck_touch (k f : Nat) : Touches edgeTouch s (pushAck k f u) := by
  unfold pushAck
  split
  · exact hs
  · exact setLink_touch hs rfl _ _

theorem ackAllFlows_touch (k : Nat) : Touches edgeTouch s (ackAllFlows k u) := forEach_touch hs _ _ fun p _ hv => pushAck_touch hv k p.1

theorem takeOver_touch (k p : Nat) : Touches edgeTouch s (takeOver k p u) := by
  unfold takeOver
  dsimp only
  refine unpark_touch ?_
  generalize hrole : setLink p _ (setLink k _ u) = v
  have hv : Touches edgeTouch s v := hrole ▸ setLink_touch (setLink_touch hs rfl _ _) rfl _ _
  generalize hkept : forEach _ _ _ = w
  have hw : Touches edgeTouch s w :=
    hkept ▸ forEach_touch (setLink_touch hv rfl _ _) _ _ fun _ _ hx => queueCord_touch hx rfl _ _ _ _ _
  have hlogged := logEv_touch hw rfl 0x0607 (unitLink k) p 0
  split
  · exact ackAllFlows_touch hlogged k
  · exact hlogged

/-! ### Injectors (R424, R425) -/

theorem setInj_touch (j : Nat) (f : Injector → Injector) : Touches edgeTouch s (setInj j f u) := hs.injectUpd rfl _

theorem injected_touch (j : Nat) : Touches edgeTouch s (injected j u) := by
  unfold injected
  dsimp only
  generalize hlogged : logEv 0x0A06 _ _ _ _ = v
  have hv : Touches edgeTouch s v := hlogged ▸ logEv_touch (linkCtr_touch (setInj_touch hs j _) rfl _ _ _) rfl _ _ _ _
  split
  · exact logEv_touch (setInj_touch hv j _) rfl _ _ _ _
  · exact hv

theorem countMatch_touch (j : Nat) : Touches edgeTouch s (countMatch j u).1 := setInj_touch hs j _

theorem injectAck_touch (k : Nat) (fr : EthFrame) : Touches edgeTouch s (injectAck k fr u).2 := by
  have hcounted := countMatch_touch hs k
  unfold injectAck
  dsimp only
  split
  · exact hs
  · split
    · exact hcounted
    · split
      · exact injected_touch (setInj_touch hcounted k _) k
      · split
        · exact injected_touch hcounted k
        · exact hcounted

theorem examineFlit_touch (k : Nat) (f : Flit) : Touches edgeTouch s (examineFlit k f u).2 := by
  have hcounted := countMatch_touch hs k
  unfold examineFlit
  refine iteInduction (motive := fun p : Option Flit × State => Touches edgeTouch s p.2) (fun _ => hs) fun _ => ?_
  refine iteInduction (motive := fun p : Option Flit × State => Touches edgeTouch s p.2) (fun _ => hcounted) fun _ => ?_
  refine iteInduction (motive := fun p : Option Flit × State => Touches edgeTouch s p.2) (fun _ => hcounted) fun _ => ?_
  split
  · exact injected_touch hcounted k
  · exact hcounted

theorem injectFlit_touch (k : Nat) (f : Flit) : Touches edgeTouch s (injectFlit k f u).2 := by
  have hexamined := examineFlit_touch hs k f
  unfold injectFlit
  split
  case h_1 hflit => rwa [hflit] at hexamined
  case h_2 hnone =>
    rw [hnone] at hexamined
    dsimp only
    split
    · exact injected_touch (setInj_touch hexamined k _) k
    · exact hexamined

/-! ### Flits and frames that leave (R209, R220, R227, R235) -/

theorem creditsSent_touch (k : Nat) (f : Flit) : Touches edgeTouch s (creditsSent k f u) := by
  have hback := fun v g => setLink_touch hs rfl k (fun l => { l with chans := modAt l.chans v g })
  unfold creditsSent
  split
  · exact hs
  · dsimp only
    split
    · exact hback _ _
    · refine useFree_touch ?_ rfl
      split
      · exact hs
      · exact hback _ _

theorem sendFlit_touch (k : Nat) (f : Flit) (again : Bool) : Touches edgeTouch s (sendFlit k f again u) := by
  unfold sendFlit
  dsimp only
  generalize hexamined : (if (again && f.seqd && injResend (injAt u k)) = true then injectFlit k f u else (f, u)) = p
  have hp : Touches edgeTouch s p.2 := by
    subst hexamined
    split
    · exact injectFlit_touch hs k f
    · exact hs
  split
  · exact setLink_touch hp rfl _ _
  · exact creditsSent_touch (setLink_touch hp rfl _ _) k _

end

/-! ### Cords that are acknowledged (R191, R193, R209) -/

section
variable {s u : State} (hs : Touches closeTouch s u)
include hs

theorem dropResult_touch (plan : Nat) (n : NodeId) (c : Nat) : Touches closeTouch s (dropResult plan n c u) := by
  unfold dropResult
  split
  · exact hs
  · split
    · exact hs
    · exact modNode_touch (forEach_touch hs _ _ fun r _ hv => giveBuf_touch hv r.2) plan n _

theorem copyAccepted_touch (plan : Nat) (n : NodeId) (c k : Nat) : Touches closeTouch s (copyAccepted plan n c k u) :=
  flushPlan_touch (tryClose_touch (dropResult_touch (modNode_touch hs plan n _) plan n c) plan n c) plan

theorem ackCord_touch (level vc : Nat) (c : Cord) : Touches closeTouch s (ackCord level vc c u) := by
  unfold ackCord
  dsimp only
  split
  · exact hs
  · split
    · split
      · split
        · exact flushPlan_touch (tryClose_touch (modNode_touch hs _ _ _) _ _ _) _
        · exact hs
      · exact hs
    · split
      · exact forEach_touch hs _ _ fun x _ hv => copyAccepted_touch hv _ x.node _ _
      · exact hs

end

section
variable {s u : State} (hs : Touches edgeTouch s u)
include hs

theorem popUnacked_touch (k v : Nat) : Touches edgeTouch s (popUnacked k v u) := by
  unfold popUnacked
  split
  · exact hs
  · exact (setLink_touch hs rfl k _).trans ((ackCord_touch (.refl _ _) _ _ _).mono rfl)

theorem flitAcked_touch (k : Nat) (f : Flit) : Touches edgeTouch s (flitAcked k f u) := by
  unfold flitAcked
  split
  · exact popUnacked_touch hs k _
  · exact hs

theorem leave_touch (k : Nat) : Touches edgeTouch s (leave k u) := by
  unfold leave
  split
  · exact hs
  · have hsent := fun f rest => sendFlit_touch (setLink_touch hs rfl k (fun l => { l with txq := rest })) k f false
    dsimp only
    split
    · exact flitAcked_touch (hsent _ _) k _
    · split
      · exact setLink_touch (hsent _ _) rfl _ _
      · exact hsent _ _

theorem sendQueued_touch (k n : Nat) : Touches edgeTouch s (sendQueued k n u) := by
  induction n generalizing u with
  | zero => exact hs
  | succ n ih =>
    unfold sendQueued
    split
    · exact hs
    · exact ih (leave_touch hs k)

theorem ethLeave_touch (k : Nat) : Touches edgeTouch s (ethLeave k u) := by
  unfold ethLeave
  split
  · exact hs
  · next fr rest _ =>
    dsimp only
    generalize hsent : setFlow k fr.flow _ _ = v
    have hv : Touches edgeTouch s v := hsent ▸ setFlow_touch (setLink_touch (injectAck_touch hs k fr) rfl _ _) rfl _ _ _
    split
    · split
      · exact takeOver_touch hv k _
      · exact hv
    · exact hv

theorem sendFrames_touch (k n : Nat) : Touches edgeTouch s (sendFrames k n u) := by
  induction n generalizing u with
  | zero => exact hs
  | succ n ih =>
    unfold sendFrames
    split
    · exact hs
    · exact ih (ethLeave_touch hs k)

theorem dropFailed_touch (k : Nat) : Touches edgeTouch s (dropFailed k u) := by
  unfold dropFailed
  split
  · exact setLink_touch hs rfl _ _
  · exact hs

/-! ### Flits on the rings (R262 to R271) -/

theorem noteProgress_touch (key : Nat) : Touches edgeTouch s (noteProgress key u) := hs.faultsUpd rfl _

theorem heard_touch (src : Src) (vc : Nat) (c : Cord) : Touches edgeTouch s (heard src vc c u) := by
  unfold heard
  split
  · exact hs
  · dsimp only
    split
    · exact noteProgress_touch (noteProgress_touch hs _) _
    · exact noteProgress_touch hs _

theorem ejectFlit_touch (ring : Nat) (fl : RingFlit) : Touches edgeTouch s (ejectFlit ring fl u) := by
  unfold ejectFlit
  split
  · exact hs
  · next it _ =>
    extract_lets v used n t
    have hv : Touches edgeTouch s v := by
      unfold v
      split
      · split
        · exact hs
        · exact heard_touch hs _ _ _
      · exact hs
    clear_value v
    refine iteInduction (fun _ => hv.fabricUpd rfl _) fun _ => iteInduction (fun _ => ?void) fun _ => ?arrived
    case void =>
      split
      · exact discard_touch (hv.fabricUpd rfl _) rfl rfl _ _ _ _
      · exact discard_touch (hv.fabricUpd rfl _) rfl rfl _ _ _ _
      · exact hv.fabricUpd rfl _
    case arrived => exact forEach_touch (hv.fabricUpd rfl _) _ _ fun d _ hw => ejectAt_touch hw rfl d it (.inl rfl) (.inl rfl)

theorem chargeShare_touch (fl : RingFlit) : Touches edgeTouch s (chargeShare fl u) := by
  unfold chargeShare
  split
  · exact hs.fabricUpd rfl _
  · exact hs

theorem fromBuffer_touch (ring : Nat) (fl : RingFlit) : Touches edgeTouch s (fromBuffer ring fl u) := by
  unfold fromBuffer
  split
  · exact ejectFlit_touch (chargeShare_touch hs fl) ring fl
  · exact hs.fabricUpd rfl _

theorem seamWait_touch (east : Bool) (id : Nat) : Touches edgeTouch s (seamWait east id u) := by
  unfold seamWait
  split
  · exact logEv_touch (hs.fabricUpd rfl _) rfl _ _ _ _
  · exact hs

theorem moveRing_touch (ring : Nat) (fls : List RingFlit) (out : SMap Nat) (east west : Nat) (holdE holdW : Bool) :
    Touches edgeTouch s (moveRing ring fls out east west holdE holdW u) := by
  induction fls generalizing u out east west holdE holdW with
  | nil => exact hs
  | cons fl rest ih =>
    have hstay : Touches edgeTouch s { u with fabric := { u.fabric with flight := smMod [] u.fabric.flight ring (fun l => l ++ [fl]) } } :=
      hs.fabricUpd rfl _
    unfold moveRing
    dsimp only
    refine iteInduction (fun _ => ih hstay ..) fun _ => ?_
    split
    · exact iteInduction (fun _ => ih hstay ..) fun _ => ih (fromBuffer_touch hs ring fl) ..
    · refine iteInduction (fun _ => ih (seamWait_touch hstay _ _) ..) fun _ => ?_
      exact iteInduction (fun _ => ih hstay ..) fun _ => ih (hs.fabricUpd rfl _) ..

theorem ringCycle_touch (ring : Nat) : Touches edgeTouch s (ringCycle ring u) := by
  have hempty : Touches edgeTouch s (emptyBuffers ring u) :=
    forEach_touch (hs.fabricUpd rfl _) _ _ fun fl _ hv => fromBuffer_touch hv ring fl
  have hlanes : Touches edgeTouch s (leaveLane ring false (leaveLane ring true (emptyBuffers ring u))) :=
    (hempty.fabricUpd rfl _).fabricUpd rfl _
  exact moveRing_touch (hlanes.fabricUpd rfl _) ring _ _ _ _ _ _

theorem ringEdge_touch : Touches edgeTouch s (ringEdge u) :=
  (forEach_touch hs (List.range 8) ringCycle fun ring _ hv => ringCycle_touch hv ring).fabricUpd rfl _

end

/-- The parts that came from the image (R333). -/
def dropTouch : Touch :=
  { image := true, leaves := true, shadows := true, inbox := true, tables := true, fabric := true, links := true, step := true, kiln := true,
    faults := true, kindle := true, power := true }

theorem dropImage_touch (s : State) : Touches dropTouch s (dropImage s) where
  params := rfl
  pending := rfl
  pins _ := rfl
  rp _ := rfl
  log _ := rfl
  freeze _ := rfl
  inject _ := rfl
  ctr _ := rfl
  free _ := rfl
  time _ _ := rfl
  timeDim _ := rfl
  kindle := nofun
  image := nofun
  power := nofun
  faults := nofun
  leaves := nofun
  shadows := nofun
  links := nofun
  fabric := nofun
  tables := nofun
  inbox := nofun
  step := nofun
  stepDim := nofun
  kiln := nofun
  kilnDim := nofun

section
variable {s u : State} (hs : Touches edgeTouch s u)
include hs

/-! ### Stops, banking and kindling that waited (R332, R351, R356) -/

theorem waitingStop_touch : Touches edgeTouch s (waitingStop u) := by
  have hrefused : ∀ v, Touches edgeTouch s v → Touches edgeTouch s (throttleRefused .east 4 v) :=
    fun v hv => hv.trans ((throttleRefused_touch .east (.refl _ v) 4).mono rfl)
  unfold waitingStop
  split
  · exact hs
  · split
    · exact hrefused _ (hs.powerUpd rfl _)
    · split
      · exact hs
      · exact (hs.powerUpd rfl _).trans ((throttled_touch .east (.refl _ _) _ 4).mono rfl)

theorem bankNow_touch : Touches edgeTouch s (bankNow u) := by
  unfold bankNow
  dsimp only
  refine logEv_touch (Touches.powerUpd (leaveDom_touch (leaveDom_touch (forEach_touch hs _ _ fun d v hv => ?_) rfl _ _) rfl _ _) rfl _) rfl _ _ _ _
  split
  · exact leaveDom_touch hv rfl _ _
  · exact hv

theorem restLinks_touch : Touches edgeTouch s (restLinks u) :=
  forEach_touch (hs.kindleUpd rfl _) _ _ fun _ _ hv => setLink_touch hv rfl _ _

theorem bankBlock_touch : Touches edgeTouch s (bankBlock u) := by
  unfold bankBlock
  dsimp only
  split
  · exact bankNow_touch (restLinks_touch hs)
  · exact (restLinks_touch hs).powerUpd rfl _

theorem bankDrained_touch : Touches edgeTouch s (bankDrained u) := by
  unfold bankDrained
  split
  · exact bankNow_touch hs
  · exact hs

theorem bankIfPending_touch : Touches edgeTouch s (bankIfPending u) := by
  unfold bankIfPending
  split
  · exact bankBlock_touch hs
  · exact hs

theorem releaseReorder_touch (k : Nat) : Touches edgeTouch s (releaseReorder k u) := by
  unfold releaseReorder
  split
  · exact hs
  · dsimp only
    split
    · exact setFlow_touch (setInj_touch hs k _) rfl _ _ _
    · exact setLink_touch (setInj_touch hs k _) rfl _ _

theorem endHolds_touch : Touches edgeTouch s (endHolds u) :=
  forEach_touch hs _ _ fun j _ hv => releaseReorder_touch (setInj_touch hv j _) j

theorem rekindleObserve_touch : Touches edgeTouch s (rekindleObserve u) := by
  unfold rekindleObserve
  dsimp only
  refine Touches.freezeUpd (forEach_touch (endHolds_touch ?_) _ _ fun j _ hv => logEv_touch (setInj_touch hv j _) rfl _ _ _ _) rfl _
  split
  · exact logEv_touch (hs.injectUpd rfl _) rfl _ _ _ _
  · exact hs

theorem stage1Check_touch : Touches edgeTouch s (stage1Check u) := by
  unfold stage1Check
  split
  · exact hs.kindleUpd rfl _
  · exact hs

end

end Sys2Proof.Machine
end

section
/-! The tick at an edge of EMBER_CLK (R274): it moves on by the rate word, and nothing else at the edge moves it. -/

namespace Sys2Proof.Machine

/-! ### The time tree that settles leaves the tick (R278, R279, R288 to R290) -/

theorem Touches.tick {T : Touch} {s u : State} (h : Touches T s u) (htime : T.time = false) : u.time.tick = s.time.tick :=
  (congrArg Time.tick (h.timeDim htime) :)

theorem ExchangeOnly.tick {s u : State} (h : ExchangeOnly s u) : u.time.tick = s.time.tick := (congrArg Time.tick h.time :)

section
variable (s : State)

@[simp] theorem logEv_tick (c n a b : Nat) : (logEv c n a b s).time.tick = s.time.tick :=
  (logEv_touch (.refl logTouch s) rfl c n a b).tick rfl

@[simp] theorem setTState_tick (st : TState) : (setTState st s).time.tick = s.time.tick := by
  unfold setTState
  dsimp only
  split
  · rfl
  · split
    · simp
    · simp

@[simp] theorem setMaster_tick (m : Nat) : (setMaster m s).time.tick = s.time.tick := by
  unfold setMaster
  split
  · rfl
  · simp

@[simp] theorem chooseUpstream_tick : (chooseUpstream s).time.tick = s.time.tick := by
  unfold chooseUpstream
  dsimp only
  split
  · split
    · rfl
    · rfl
  · rfl
  · rfl
  · rfl

theorem settleRole_tick : (settleRole s).time.tick = s.time.tick := by
  have hlocks : ∀ (t : State) (p q : Prop) [Decidable p] [Decidable q], t.time.tick = s.time.tick →
      (if p then setTState .holdover t else if q then setTState .acquiring t else t).time.tick = s.time.tick := by
    intro t p q _ _ ht
    split
    · exact (setTState_tick t _).trans ht
    · split
      · exact (setTState_tick t _).trans ht
      · exact ht
  unfold settleRole
  dsimp only
  split
  · split
    · exact setMaster_tick _ _
    · exact (setTState_tick _ _).trans (setMaster_tick _ _)
  · refine hlocks _ _ _ ?_
    split
    · split
      · exact (chooseUpstream_tick _).trans (setTState_tick _ _)
      · exact setTState_tick _ _
    · split
      · exact chooseUpstream_tick _
      · rfl

theorem confirm_tick : (confirm s).time.tick = s.time.tick := by
  unfold confirm
  dsimp only
  split
  · rfl
  · rfl

theorem follow_tick : (follow s).time.tick = s.time.tick := by
  unfold follow
  split
  · rfl
  · simp

theorem noteLocked_tick : (noteLocked s).time.tick = s.time.tick := by
  unfold noteLocked
  split
  · rfl
  · rfl

theorem settleTime_tick : (settleTime s).time.tick = s.time.tick := by
  unfold settleTime
  dsimp only
  rw [noteLocked_tick]
  split
  · rw [confirm_tick, settleRole_tick]
  · rw [follow_tick, settleRole_tick]

theorem settleAndTell_tick : (settleAndTell s).time.tick = s.time.tick :=
  (ExchangeOnly.refl (settleTime s)).announce.tick.trans (settleTime_tick s)

/-! ### The links and kindling -/

theorem wireEdge_tick (k : Nat) : (wireEdge k s).time.tick = s.time.tick := by
  have hdropped := dropFailed_touch (.refl _ s) k
  have hstamped : ∀ v frames, Touches edgeTouch s v → (stampLeft k frames v).time.tick = s.time.tick :=
    fun v frames hv => ((ExchangeOnly.refl v).stampLeft k frames).tick.trans (hv.tick rfl)
  unfold wireEdge
  dsimp only
  split
  · split
    · exact hstamped _ _ (sendFrames_touch hdropped k _)
    · exact hdropped.tick rfl
  · split
    · exact hstamped _ _ (sendQueued_touch (forEach_touch (setLink_touch hdropped rfl _ _) _ _ fun f _ hv => sendFlit_touch hv k f true) k _)
    · exact hdropped.tick rfl

theorem startKindle_tick : (startKindle s).time.tick = s.time.tick := by
  have hdropped : Touches edgeTouch s (ctrClear (dropImage (rekindleObserve s))) :=
    ((rekindleObserve_touch (.refl _ s)).trans ((dropImage_touch _).mono rfl)).ctrUpd rfl _
  have hstage1 : ∀ v, (stage1Check (requestDoms stage1Doms v)).time.tick = v.time.tick :=
    fun v => (stage1Check_touch (requestDoms_touch (.refl edgeTouch v) rfl stage1Doms)).tick rfl
  unfold startKindle
  dsimp only
  rw [hstage1, settleTime_tick, logEv_tick]
  exact hdropped.tick rfl

theorem kindleWoken_tick : (kindleWoken s).time.tick = s.time.tick := by
  unfold kindleWoken
  split
  · exact startKindle_tick s
  · rfl

theorem wires_tick (l : List Nat) : (forEach l s wireEdge).time.tick = s.time.tick := by
  unfold forEach
  induction l generalizing s with
  | nil => rfl
  | cons k l ih => exact (ih (wireEdge k s)).trans (wireEdge_tick s k)

end

/-! ### The advance (R274, R285) -/

/-- The tick with its fraction in units of 2^-32 after an edge. -/
def advanced (t : Time) : Int := (t.tick.toNat : Int) * 2 ^ 32 + t.frac.toNat + 2 ^ 32 + t.ratePpb * 2 ^ 32 / 1000000000

theorem tick_advanceTick (s : State) : (advanceTick s).time.tick = BitVec.ofInt 64 (advanced s.time / 2 ^ 32) := rfl

/-- Within 200 ppm an edge moves the tick on by less than two counts, and not back. -/
theorem advanced_bounds {t : Time} (hlow : -200000 ≤ t.ratePpb) (hhigh : t.ratePpb ≤ 200000) :
    (t.tick.toNat : Int) ≤ advanced t / 2 ^ 32 ∧ advanced t / 2 ^ 32 ≤ t.tick.toNat + 2 := by
  have hfrac := t.frac.isLt
  unfold advanced
  omega

theorem advanceTick_bounds {s : State} (hlow : -200000 ≤ s.time.ratePpb) (hhigh : s.time.ratePpb ≤ 200000)
    (hend : s.time.tick.toNat + 2 < 2 ^ 64) :
    s.time.tick.toNat ≤ (advanceTick s).time.tick.toNat ∧ (advanceTick s).time.tick.toNat ≤ s.time.tick.toNat + 2 := by
  obtain ⟨hfrom, hto⟩ := advanced_bounds hlow hhigh
  rw [tick_advanceTick, BitVec.toNat_ofInt]
  omega

/-! ### The edge -/

/-- The edge of a live port, from the advance of the tick on. -/
theorem emberEdge_live {s : State} (hlive : portLive s = true) : emberEdge s =
    kindleWoken (bankDrained (bankIfPending (settleAndTell (waitingStop (ringEdge
      (forEach (List.range 24) (unpark (advanceTick (clearWires (endAck s)))) wireEdge)))))) := by
  have hstill : portLive (endAck s) = true := hlive
  simp [emberEdge, hstill]

theorem emberEdge_tick {s : State} (hlive : portLive s = true) : (emberEdge s).time.tick = (advanceTick s).time.tick := by
  have hwires : (clearWires (endAck s)).time = s.time := (clearWires_touch (.refl { links := true } (endAck s)) rfl).time rfl rfl
  rw [tick_advanceTick, ← hwires, ← tick_advanceTick, emberEdge_live hlive, kindleWoken_tick,
    (bankDrained_touch (bankIfPending_touch (.refl _ _))).tick rfl, settleAndTell_tick,
    (waitingStop_touch (ringEdge_touch (.refl _ _))).tick rfl, wires_tick, (unpark_touch (.refl _ _)).tick rfl]

theorem emberEdge_dead {s : State} (hdead : portLive s = false) : emberEdge s = endAck s := by
  have hstill : portLive (endAck s) = false := hdead
  simp [emberEdge, hstill]

/-! ### The statement -/

theorem step_idle {s : State} (hidle : s.pending = []) : step s = .next (keepQueue s (emberEdge s)) := by
  rw [step, hidle]
  rfl

/-- Settles O2: an edge keeps the queue and the parameters, and its tick is that of the advance by the rate word. -/
theorem idleStepIsOneEmberEdge : Obligations.IdleStepIsOneEmberEdge := by
  intro s hidle
  refine ⟨⟨_, step_idle hidle, hidle, rfl, fun hlive hlow hhigh hend => ?ticks⟩, fun hdead => ?dead⟩
  case ticks =>
    have htick : (keepQueue s (emberEdge s)).time.tick = (advanceTick s).time.tick := emberEdge_tick hlive
    rw [htick]
    exact advanceTick_bounds hlow hhigh hend
  case dead =>
    rw [step_idle hidle, emberEdge_dead hdead]
    rfl

end Sys2Proof.Machine
end
